-- ==== Sys2Proof/Word.lean ====
section
/-! DEFINITION. The words of the block: bytes, 16-bit words, adapter statuses, bus addresses and the
delivered floating-point values. -/

namespace Sys2Proof

/-- One byte of a transfer (`u8`, R7). -/
abbrev Byte := BitVec 8

/-- A 16-bit word: a request word `REQ16`, a command code `CMD16`, a raw count (`u16`, R7). -/
abbrev Word := BitVec 16

/-- A status the adapter returns: signed, 8 bits, two's complement (R6 `STATUS_W`, D5). -/
abbrev Status := BitVec 8

/-- A 7-bit bus address, never the shifted 8-bit form (R10, R31). -/
abbrev BusAddr := BitVec 7

/-- A value of the open format `FLT` (R6, R20), held as the rational number it denotes: no NaN, infinity
or other special value can arise (R91).  DESIGN CHOICE, safe, log 13. -/
abbrev Flt := Rat

end Sys2Proof
end

