-- ==== Sys2Proof/Syntax.lean ====
section
/-! DEFINITION. The instructions: one constructor per row of spec/opcode_table.json.

The ten host operations and the six reserved operation numbers are rows of the request format `REQ16`
(30_encoding.md R53, R54, R69).  The 29 wire commands are rows of the format `CMD16` (R60 to R64).  An operand
is the unsigned number its field holds (R55); WellFormed says how wide the field is.  Fields an operation
ignores (R54) are no operands. -/

namespace Sys2Proof

inductive Instr
  -- REQ16, the ten operations (R53, R55)
  | init (selector : Nat)
  | deInit
  | setSingleShot (rep : Nat)
  | setPeriodic (speed : Nat) (rep : Nat)
  | setART
  | readSample
  | readStatus
  | clearStatus
  | setHeater (enabled : Nat)
  | setAddressI2C (selector : Nat)
  -- REQ16, the reserved operation numbers (R69)
  | reservedOpA
  | reservedOpB
  | reservedOpC
  | reservedOpD
  | reservedOpE
  | reservedOpF
  -- CMD16, the eight fixed commands (R61)
  | cmdSoftReset
  | cmdStopPeriodic
  | cmdFetchData
  | cmdReadStatus
  | cmdClearStatus
  | cmdHeaterOn
  | cmdHeaterOff
  | cmdART
  -- CMD16, the periodic table (R62)
  | cmdPeriodicMps05Low
  | cmdPeriodicMps05Medium
  | cmdPeriodicMps05High
  | cmdPeriodicMps1Low
  | cmdPeriodicMps1Medium
  | cmdPeriodicMps1High
  | cmdPeriodicMps2Low
  | cmdPeriodicMps2Medium
  | cmdPeriodicMps2High
  | cmdPeriodicMps4Low
  | cmdPeriodicMps4Medium
  | cmdPeriodicMps4High
  | cmdPeriodicMps10Low
  | cmdPeriodicMps10Medium
  | cmdPeriodicMps10High
  -- CMD16, single shot without clock stretching (R63)
  | cmdSingleShotLow
  | cmdSingleShotMedium
  | cmdSingleShotHigh
  -- CMD16, single shot with clock stretching (R64)
  | cmdSingleShotStretchLow
  | cmdSingleShotStretchMedium
  | cmdSingleShotStretchHigh
deriving DecidableEq, Repr

end Sys2Proof
end

