-- ==== Sys2Proof/WellFormed.lean ====
section
/-! DEFINITION. Which instructions the encoding admits: every operand fits its field of `REQ16`
(30_encoding.md R54, R55).  An operand that fits its field and is out of its legal range is well formed:
the operation answers it with `InvalidParam` (R56, R57, R70). -/

namespace Sys2Proof

/-- Operand `a = REQ16[11:4]`, 8 bits (R54). -/
def fitsA (n : Nat) : Bool := decide (n < 256)

/-- Operand `b = REQ16[3:0]`, 4 bits (R54). -/
def fitsB (n : Nat) : Bool := decide (n < 16)

/-- An instruction the encoding can hold (R54, R55). -/
def Instr.wf : Instr → Bool
  | .init selector => fitsA selector
  | .setSingleShot rep => fitsB rep
  | .setPeriodic speed rep => fitsA speed && fitsB rep
  | .setHeater enabled => fitsB enabled
  | .setAddressI2C selector => fitsA selector
  | .deInit | .setART | .readSample | .readStatus | .clearStatus => true
  | .reservedOpA | .reservedOpB | .reservedOpC | .reservedOpD | .reservedOpE | .reservedOpF => true
  | .cmdSoftReset | .cmdStopPeriodic | .cmdFetchData | .cmdReadStatus | .cmdClearStatus => true
  | .cmdHeaterOn | .cmdHeaterOff | .cmdART => true
  | .cmdPeriodicMps05Low | .cmdPeriodicMps05Medium | .cmdPeriodicMps05High => true
  | .cmdPeriodicMps1Low | .cmdPeriodicMps1Medium | .cmdPeriodicMps1High => true
  | .cmdPeriodicMps2Low | .cmdPeriodicMps2Medium | .cmdPeriodicMps2High => true
  | .cmdPeriodicMps4Low | .cmdPeriodicMps4Medium | .cmdPeriodicMps4High => true
  | .cmdPeriodicMps10Low | .cmdPeriodicMps10Medium | .cmdPeriodicMps10High => true
  | .cmdSingleShotLow | .cmdSingleShotMedium | .cmdSingleShotHigh => true
  | .cmdSingleShotStretchLow | .cmdSingleShotStretchMedium | .cmdSingleShotStretchHigh => true

end Sys2Proof
end

