-- ==== Sys2Proof/Decode.lean ====
section
/-! DEFINITION. The decoders, the encoder and the tables they share (30_encoding.md).

The block knows two kinds of 16-bit word, in two different spaces: the request word `REQ16` the host
presents (R54) and the command code `CMD16` the engine emits (R60).  One number can be a word of both
(`0x3041` is the request `SetPeriodic MPS_10, Medium` and the command clear status, 95_test_vectors.md
2.2), so there are two decoders, and a word is decoded by the one of its own space. -/

namespace Sys2Proof

/-! ### Byte order -/

/-- `Word16(hi, lo) = (zext_16(hi) << 8) | zext_16(lo)` (R40). -/
def word16 (hi lo : Byte) : Word := (hi.setWidth 16 <<< 8) ||| lo.setWidth 16

/-- `v[15:8]`, the byte sent first (R38, R39). -/
def hiByte (w : Word) : Byte := w.extractLsb' 8 8

/-- `v[7:0]`, the byte sent second (R38, R39). -/
def loByte (w : Word) : Byte := w.extractLsb' 0 8

/-! ### The command codes -/

namespace Code

/-- The fixed commands (R61). -/
def softReset : Word := 0x30A2
def stopPeriodic : Word := 0x3093
def fetchData : Word := 0xE000
def readStatus : Word := 0xF32D
def clearStatus : Word := 0x3041
def heaterOn : Word := 0x306D
def heaterOff : Word := 0x3066
def art : Word := 0x2B32

/-- The periodic table (R62).  Only `periodicMps4High` is the source's; the other fourteen are
[from general knowledge, not in source], G1, log 19. -/
def periodicMps05Low : Word := 0x202F
def periodicMps05Medium : Word := 0x2024
def periodicMps05High : Word := 0x2032
def periodicMps1Low : Word := 0x212D
def periodicMps1Medium : Word := 0x2126
def periodicMps1High : Word := 0x2130
def periodicMps2Low : Word := 0x222B
def periodicMps2Medium : Word := 0x2220
def periodicMps2High : Word := 0x2236
def periodicMps4Low : Word := 0x2329
def periodicMps4Medium : Word := 0x2322
def periodicMps4High : Word := 0x2334
def periodicMps10Low : Word := 0x272A
def periodicMps10Medium : Word := 0x2721
def periodicMps10High : Word := 0x2737

/-- The single-shot table without clock stretching (R63, [from general knowledge, not in source], G2,
log 19). -/
def singleShotLow : Word := 0x2416
def singleShotMedium : Word := 0x240B
def singleShotHigh : Word := 0x2400

/-- The single-shot table with clock stretching (R64, G2, log 19). -/
def singleShotStretchLow : Word := 0x2C10
def singleShotStretchMedium : Word := 0x2C0D
def singleShotStretchHigh : Word := 0x2C06

end Code

/-! ### The request decoder -/

/-- `op = REQ16[15:12]` (R54). -/
def reqOp (w : Word) : Nat := (w.extractLsb' 12 4).toNat

/-- `a = REQ16[11:4]` (R54). -/
def reqA (w : Word) : Nat := (w.extractLsb' 4 8).toNat

/-- `b = REQ16[3:0]` (R54). -/
def reqB (w : Word) : Nat := (w.extractLsb' 0 4).toNat

/-- The operation a request word selects, with its operands (R53 to R55, R69).  Total: every word is a
request. -/
def decodeRequest (w : Word) : Instr :=
  match reqOp w with
  | 0 => .init (reqA w)
  | 1 => .deInit
  | 2 => .setSingleShot (reqB w)
  | 3 => .setPeriodic (reqA w) (reqB w)
  | 4 => .setART
  | 5 => .readSample
  | 6 => .readStatus
  | 7 => .clearStatus
  | 8 => .setHeater (reqB w)
  | 9 => .setAddressI2C (reqA w)
  | 10 => .reservedOpA
  | 11 => .reservedOpB
  | 12 => .reservedOpC
  | 13 => .reservedOpD
  | 14 => .reservedOpE
  | _ => .reservedOpF

/-! ### The command decoder -/

/-- One row of the command table: mask `0xFFFF`, so the code is the whole pattern (R60). -/
structure CommandRow where
  code : Word
  instr : Instr
deriving DecidableEq, Repr

/-- The eight fixed commands (R61). -/
def fixedRows : List CommandRow :=
  [⟨Code.softReset, .cmdSoftReset⟩, ⟨Code.stopPeriodic, .cmdStopPeriodic⟩,
   ⟨Code.fetchData, .cmdFetchData⟩, ⟨Code.readStatus, .cmdReadStatus⟩,
   ⟨Code.clearStatus, .cmdClearStatus⟩, ⟨Code.heaterOn, .cmdHeaterOn⟩,
   ⟨Code.heaterOff, .cmdHeaterOff⟩, ⟨Code.art, .cmdART⟩]

/-- The fifteen periodic commands (R62). -/
def periodicRows : List CommandRow :=
  [⟨Code.periodicMps05Low, .cmdPeriodicMps05Low⟩, ⟨Code.periodicMps05Medium, .cmdPeriodicMps05Medium⟩,
   ⟨Code.periodicMps05High, .cmdPeriodicMps05High⟩, ⟨Code.periodicMps1Low, .cmdPeriodicMps1Low⟩,
   ⟨Code.periodicMps1Medium, .cmdPeriodicMps1Medium⟩, ⟨Code.periodicMps1High, .cmdPeriodicMps1High⟩,
   ⟨Code.periodicMps2Low, .cmdPeriodicMps2Low⟩, ⟨Code.periodicMps2Medium, .cmdPeriodicMps2Medium⟩,
   ⟨Code.periodicMps2High, .cmdPeriodicMps2High⟩, ⟨Code.periodicMps4Low, .cmdPeriodicMps4Low⟩,
   ⟨Code.periodicMps4Medium, .cmdPeriodicMps4Medium⟩, ⟨Code.periodicMps4High, .cmdPeriodicMps4High⟩,
   ⟨Code.periodicMps10Low, .cmdPeriodicMps10Low⟩, ⟨Code.periodicMps10Medium, .cmdPeriodicMps10Medium⟩,
   ⟨Code.periodicMps10High, .cmdPeriodicMps10High⟩]

/-- The three single-shot commands without clock stretching (R63). -/
def singleShotRows : List CommandRow :=
  [⟨Code.singleShotLow, .cmdSingleShotLow⟩, ⟨Code.singleShotMedium, .cmdSingleShotMedium⟩,
   ⟨Code.singleShotHigh, .cmdSingleShotHigh⟩]

/-- The three single-shot commands with clock stretching (R64). -/
def stretchRows : List CommandRow :=
  [⟨Code.singleShotStretchLow, .cmdSingleShotStretchLow⟩,
   ⟨Code.singleShotStretchMedium, .cmdSingleShotStretchMedium⟩,
   ⟨Code.singleShotStretchHigh, .cmdSingleShotStretchHigh⟩]

/-- The 29 points of the command space the engine uses (R46). -/
def commandRows : List CommandRow := fixedRows ++ periodicRows ++ singleShotRows ++ stretchRows

/-- The command of a 16-bit code, all 16 bits matched (R60); `none` for every other point of the command
space, which the engine never emits (R71). -/
def decodeCommand (w : Word) : Option Instr :=
  (commandRows.find? fun row => row.code == w).map (·.instr)

/-! ### Decoding bytes -/

/-- The two formats of the opcode table. -/
inductive Format
  /-- a request word the host presents (R54) -/
  | req16
  /-- a command code the engine emits (R60) -/
  | cmd16
deriving DecidableEq, Repr

/-- Why bytes are no instruction. -/
inductive DecodeError
  /-- fewer than the two bytes every instruction has (R72) -/
  | truncated
  /-- the two bytes are no code of R61 to R64 (R71) -/
  | notACommand
deriving DecidableEq, Repr

/-- The instruction at the head of a list of bytes, and the bytes after it.  Both formats are two bytes
(R72), the more significant first: for `CMD16` by R39; for `REQ16`, which the spec gives no byte order,
DESIGN CHOICE, safe, log 11. -/
def decode (f : Format) : List Byte → Except DecodeError (Instr × List Byte)
  | hi :: lo :: rest =>
    match f with
    | .req16 => .ok (decodeRequest (word16 hi lo), rest)
    | .cmd16 =>
      match decodeCommand (word16 hi lo) with
      | some i => .ok (i, rest)
      | none => .error .notACommand
  | _ => .error .truncated

/-! ### The encoder -/

/-- The format of an instruction's row in the opcode table. -/
def Instr.format : Instr → Format
  | .init _ | .deInit | .setSingleShot _ | .setPeriodic _ _ | .setART | .readSample | .readStatus
  | .clearStatus | .setHeater _ | .setAddressI2C _ => .req16
  | .reservedOpA | .reservedOpB | .reservedOpC | .reservedOpD | .reservedOpE | .reservedOpF => .req16
  | .cmdSoftReset | .cmdStopPeriodic | .cmdFetchData | .cmdReadStatus | .cmdClearStatus
  | .cmdHeaterOn | .cmdHeaterOff | .cmdART => .cmd16
  | .cmdPeriodicMps05Low | .cmdPeriodicMps05Medium | .cmdPeriodicMps05High
  | .cmdPeriodicMps1Low | .cmdPeriodicMps1Medium | .cmdPeriodicMps1High
  | .cmdPeriodicMps2Low | .cmdPeriodicMps2Medium | .cmdPeriodicMps2High
  | .cmdPeriodicMps4Low | .cmdPeriodicMps4Medium | .cmdPeriodicMps4High
  | .cmdPeriodicMps10Low | .cmdPeriodicMps10Medium | .cmdPeriodicMps10High => .cmd16
  | .cmdSingleShotLow | .cmdSingleShotMedium | .cmdSingleShotHigh => .cmd16
  | .cmdSingleShotStretchLow | .cmdSingleShotStretchMedium | .cmdSingleShotStretchHigh => .cmd16

/-- A request word from its three fields (R54). -/
def reqWord (op a b : Nat) : Word := BitVec.ofNat 16 (op * 4096 + a * 16 + b)

/-- The word of an instruction: the fields placed as R53 to R55 place them, ignored fields zero; for a
command its code (R61 to R64). -/
def Instr.word : Instr → Word
  | .init selector => reqWord 0x0 selector 0
  | .deInit => reqWord 0x1 0 0
  | .setSingleShot rep => reqWord 0x2 0 rep
  | .setPeriodic speed rep => reqWord 0x3 speed rep
  | .setART => reqWord 0x4 0 0
  | .readSample => reqWord 0x5 0 0
  | .readStatus => reqWord 0x6 0 0
  | .clearStatus => reqWord 0x7 0 0
  | .setHeater enabled => reqWord 0x8 0 enabled
  | .setAddressI2C selector => reqWord 0x9 selector 0
  | .reservedOpA => reqWord 0xA 0 0
  | .reservedOpB => reqWord 0xB 0 0
  | .reservedOpC => reqWord 0xC 0 0
  | .reservedOpD => reqWord 0xD 0 0
  | .reservedOpE => reqWord 0xE 0 0
  | .reservedOpF => reqWord 0xF 0 0
  | .cmdSoftReset => Code.softReset
  | .cmdStopPeriodic => Code.stopPeriodic
  | .cmdFetchData => Code.fetchData
  | .cmdReadStatus => Code.readStatus
  | .cmdClearStatus => Code.clearStatus
  | .cmdHeaterOn => Code.heaterOn
  | .cmdHeaterOff => Code.heaterOff
  | .cmdART => Code.art
  | .cmdPeriodicMps05Low => Code.periodicMps05Low
  | .cmdPeriodicMps05Medium => Code.periodicMps05Medium
  | .cmdPeriodicMps05High => Code.periodicMps05High
  | .cmdPeriodicMps1Low => Code.periodicMps1Low
  | .cmdPeriodicMps1Medium => Code.periodicMps1Medium
  | .cmdPeriodicMps1High => Code.periodicMps1High
  | .cmdPeriodicMps2Low => Code.periodicMps2Low
  | .cmdPeriodicMps2Medium => Code.periodicMps2Medium
  | .cmdPeriodicMps2High => Code.periodicMps2High
  | .cmdPeriodicMps4Low => Code.periodicMps4Low
  | .cmdPeriodicMps4Medium => Code.periodicMps4Medium
  | .cmdPeriodicMps4High => Code.periodicMps4High
  | .cmdPeriodicMps10Low => Code.periodicMps10Low
  | .cmdPeriodicMps10Medium => Code.periodicMps10Medium
  | .cmdPeriodicMps10High => Code.periodicMps10High
  | .cmdSingleShotLow => Code.singleShotLow
  | .cmdSingleShotMedium => Code.singleShotMedium
  | .cmdSingleShotHigh => Code.singleShotHigh
  | .cmdSingleShotStretchLow => Code.singleShotStretchLow
  | .cmdSingleShotStretchMedium => Code.singleShotStretchMedium
  | .cmdSingleShotStretchHigh => Code.singleShotStretchHigh

/-- The two bytes of an instruction, the more significant first (R39, R72; log 11). -/
def encode (i : Instr) : List Byte := [hiByte i.word, loByte i.word]

/-! ### The opcode table's own numbering -/

/-- Which format a number of the opcode table is read in.  The table lists both formats and a number
alone does not say which: a number that is exactly a command code is read as that command's row, every
other number as a request.  DESIGN CHOICE, log 10: it concerns this table lookup only, never a word the
host or the sequencer presents, whose format is known. -/
def tableFormat (w : Word) : Format := if (decodeCommand w).isSome then .cmd16 else .req16

/-- The bytes of a number of the opcode table, the more significant first. -/
def tableBytes (w : Word) : List Byte := [hiByte w, loByte w]

/-- The instruction the decoder reads from a row's bits, bit 0 the least significant.  Every row has 16
bits (R72); more bits are no row. -/
def decodeTableWord (nbits w : Nat) : Option Instr :=
  if 16 < nbits ∨ 2 ^ nbits ≤ w then none
  else
    match decode (tableFormat (BitVec.ofNat 16 w)) (tableBytes (BitVec.ofNat 16 w)) with
    | .ok (i, _) => some i
    | .error _ => none

end Sys2Proof
end

