-- ==== Sys2Proof/Config.lean ====
section
/-! DEFINITION. The parameters of the block that are open or fixed per implementation (00_scope.md R6,
10_state.md R16), and the free values, which are uninterpreted constants. -/

namespace Sys2Proof

/-- `ADDR_DEFAULT_POLICY` (R6, D6): what an unrecognised address selector does. -/
inductive AddrPolicy
  /-- resolves to `0x44`, the default -/
  | defaultToA
  /-- leaves the previous address, the other variant the source reports -/
  | keepPrevious
deriving DecidableEq, Repr

/-- What the registers hold at power-on, of which the source says nothing (R30, D8).  The model's own parameter
(log 2). -/
inductive PowerOnRegisters
  /-- every register holds a value from power-on on: those `Handle.powerOn`, `Sample.powerOn` and
  `State.powerOn` name, DESIGN CHOICE, unsafe, log 2 -/
  | resetValues
  /-- the spec's decision D8: a register holds no value until it is written, and reading one is a fault
  (R29, R30, R121, U7) -/
  | noValue
deriving DecidableEq, Repr

/-- The configuration of one block: the capability straps and the implementation parameters
(R6, R16, R28).  It is constant for the life of the block.  It stands in State, because a step has no
other argument, and no step changes it (log 3). -/
structure Config where
  /-- the required Send binding is present -/
  hasSend : Bool
  /-- the required Receive binding is present -/
  hasRecv : Bool
  /-- the required Delay binding is present -/
  hasDelay : Bool
  /-- the optional platform init binding is present -/
  hasInit : Bool
  /-- the optional platform deinit binding is present -/
  hasDeInit : Bool
  /-- the optional CRC-check binding is present -/
  hasCrc : Bool
  /-- `NACK_CODE`: open, with the one constraint that it is negative (R37, D5) -/
  nackCode : Status
  addrDefaultPolicy : AddrPolicy
  /-- `CLOCK_STRETCH`: only `false` is specified (R64, D19) -/
  clockStretch : Bool
  /-- what the registers hold at power-on (log 2) -/
  powerOnRegisters : PowerOnRegisters
deriving DecidableEq, Repr

namespace Config

/-- The one constraint R6 and R37 put on the open parameters: `NACK_CODE < 0`, as a signed number. -/
def nackNegative (c : Config) : Bool := c.nackCode.msb

/-- The configuration of the reset state.  R6 and R16 leave the straps and `NACK_CODE` open; the values
are the conventions of 95_test_vectors.md (three required capabilities, no optional one) and -1 for
`NACK_CODE`, and every register holds a value.  DESIGN CHOICE, unsafe, log 2, log 3 and log 4. -/
def standard : Config where
  hasSend := true
  hasRecv := true
  hasDelay := true
  hasInit := false
  hasDeInit := false
  hasCrc := false
  nackCode := 0xFF#8
  addrDefaultPolicy := .defaultToA
  clockStretch := false
  powerOnRegisters := .resetValues

/-- FREE VALUE: the status of the n-th adapter call when no script decides it (R52, U4; log 5). -/
opaque freeStatus : Nat → Status

/-- FREE VALUE: byte k of what the n-th adapter call leaves in the receive buffer, when no script decides
it (R52, U4, U5; log 5). -/
opaque freeByte : Nat → Nat → Byte

/-- OPEN PARAMETER: `CVT_TOL`, the tolerance between a delivered derived value and its exact rational, a property
of `FLT` (R6, R91, U13, D20; log 13). -/
opaque cvtTol : NNRat

/-- OPEN PARAMETER: what the implementation's format and its rounding make of an exact rational (R6, R91, D20;
log 13). -/
opaque fltOf : Rat → Flt

/-- `round_FLT`: the open rounding, where it is within `CVT_TOL` of the exact rational, as R6 and R91 ask of it.
Every rounding that is within its tolerance is one of these, and only those are (log 13). -/
def roundFlt (q : Rat) : Flt := if |fltOf q - q| ≤ (cvtTol : Rat) then fltOf q else q

end Config

end Sys2Proof
end

