-- ==== Sys2Proof/Machine/State.lean ====
section
/-! DEFINITION. The machine's state as plain data (10_state.md), what the adapter and the host hand to it,
and the reasons a step can stop. -/

namespace Sys2Proof.Machine

/-- A register that holds a value, or holds no value.  "No value" is the spec's own content of a register
that nothing has written since power-on (R29, R30: the column "after power-on or `rst`" reads "no value").  A
block has such registers only in the configuration `PowerOnRegisters.noValue`; in the other, State.reset's, every
register holds a value (log 2). -/
abbrev Reg (α : Type) := Option α

/-- The contents of `H.MODE`, 2 bits (R11, R12). -/
inductive Mode
  | singleShot
  | periodic
  | art
  /-- the reserved encoding 3, which no operation writes -/
  | reserved
deriving DecidableEq, Repr

/-- The contents of `H.REP`, 2 bits (R13). -/
inductive Repeatability
  | low
  | medium
  | high
  /-- the reserved encoding 3, which no operation writes -/
  | reserved
deriving DecidableEq, Repr

/-- The contents of `H.SPEED`, 3 bits (R14): measurements per second, and the reserved encodings 5 to 7,
which no operation writes. -/
inductive Speed
  | mps05
  | mps1
  | mps2
  | mps4
  | mps10
  | reserved5
  | reserved6
  | reserved7
deriving DecidableEq, Repr

/-- The CRC-check binding slot `H.CRC` (R15, D32). -/
inductive CrcBinding
  /-- `None`: nothing bound -/
  | unbound
  /-- `Ext`: the adapter's CRC-check capability is bound -/
  | ext
  /-- `Default`: the engine's own always-valid check is installed -/
  | default
deriving DecidableEq, Repr

/-- The Device Handle, the control registers of the block (R9 to R15). -/
structure Handle where
  /-- `H.ADDR` (R10) -/
  addr : Reg BusAddr
  /-- `H.MODE` (R11) -/
  mode : Reg Mode
  /-- `H.REP` (R13) -/
  rep : Reg Repeatability
  /-- `H.SPEED` (R14) -/
  speed : Reg Speed
  /-- `H.CRC` (R15) -/
  crc : CrcBinding
deriving DecidableEq, Repr

/-- The Sample output bank (R18 to R21). -/
structure Sample where
  /-- `S.T_RAW` (R18) -/
  tRaw : Reg Word
  /-- `S.H_RAW` (R19) -/
  hRaw : Reg Word
  /-- `S.CELSIUS` (R20) -/
  celsius : Reg Flt
  /-- `S.FAHRENHEIT` (R20) -/
  fahrenheit : Reg Flt
  /-- `S.HUMIDITY` (R20) -/
  humidity : Reg Flt
deriving DecidableEq, Repr

/-- The five result codes (R101 to R106), the contents of `RES`. -/
inductive Result
  | ok
  | fail
  | invalidParam
  | crcError
  | noData
deriving DecidableEq, Repr

/-- The ten operations, as the sequencer names them (R24). -/
inductive Operation
  | init
  | deInit
  | setSingleShot
  | setPeriodic
  | setART
  | readSample
  | readStatus
  | clearStatus
  | setHeater
  | setAddressI2C
deriving DecidableEq, Repr

/-- The sequencer `SEQ`, the program-counter analogue (R24, D34). -/
inductive Seq
  | idle
  /-- this operation is running and this line of its pseudocode is next; which lines are numbered how is
  log 18 -/
  | running (op : Operation) (line : Nat)
  /-- a bare wire command is being sent (log 9) -/
  | command
deriving DecidableEq, Repr

/-- `TXBUF[0..1]` (R25). -/
structure TxBuf where
  b0 : Byte
  b1 : Byte
deriving DecidableEq, Repr

/-- `RXBUF[0..5]` (R25). -/
structure RxBuf where
  b0 : Byte
  b1 : Byte
  b2 : Byte
  b3 : Byte
  b4 : Byte
  b5 : Byte
deriving DecidableEq, Repr

/-- The six capability bindings (R16, R119). -/
inductive Capability
  | send
  | recv
  | delay
  | platformInit
  | platformDeInit
  | crcCheck
deriving DecidableEq, Repr

/-- One call the engine makes to the adapter, with its arguments (R31 to R35). -/
inductive Call
  /-- `BusSend(addr, [b0 b1], 2)` (R31) -/
  | send (addr : BusAddr) (b0 b1 : Byte)
  /-- `BusRecv(addr, n)` (R32) -/
  | recv (addr : BusAddr) (n : Nat)
  /-- `Delay(ms)` (R33) -/
  | delay (ms : Nat)
  /-- `PlatformInit()` (R34) -/
  | platformInit
  /-- `PlatformDeInit()` (R34) -/
  | platformDeInit
  /-- `CrcExt(v, c)` (R35) -/
  | crc (v : Word) (c : Byte)
deriving DecidableEq, Repr

/-- What the adapter does with the next call (R52): it returns a status and, for a Receive, bytes (the
first n of the six count; another call ignores them), or it never returns (R136, U12). -/
inductive Answer
  | returns (st : Status) (buf : RxBuf)
  | never
deriving DecidableEq, Repr

/-- What a call gave back, as the trace records it (R52). -/
inductive Reply
  | status (st : Status)
  | received (st : Status) (bytes : List Byte)
  /-- the call never returned (R136) -/
  | never
deriving DecidableEq, Repr

/-- One entry of the call trace (R52). -/
structure Event where
  call : Call
  reply : Reply
deriving DecidableEq, Repr

/-- What the host does to the block (R117, R122). -/
inductive HostEvent
  /-- presents an operation as its request word (R54) -/
  | request (w : Word)
  /-- the model's own: one bare wire command, the `CMD16` rows of the opcode table (log 9) -/
  | command (w : Word)
  /-- pulses the hardware reset input `rst` (R122, log 8) -/
  | rst
deriving DecidableEq, Repr

/-- The registers a line can read while they hold no value (R29). -/
inductive RegName
  | addr
  | mode
  | rep
deriving DecidableEq, Repr

/-- The faults of the model, all of them named by the spec. -/
inductive Fault
  /-- A line reads a register that holds no value.  Raised by every `WriteCommand` and `BusRecv` (`H.ADDR`)
  and by ReadSample (`H.MODE`, `H.REP`), only in the configuration `PowerOnRegisters.noValue`: R29, D8, U7.
  Safe: the spec gives the operation no meaning from there. -/
  | registerHoldsNoValue (r : RegName)
  /-- `CrcCheck` with `H.CRC = None`.  Raised by ReadSample and ReadStatus: R29, R36, U9.  Safe. -/
  | crcUnbound
  /-- A call of a capability that is not bound.  Raised by every operation but where Init checks: R16,
  R104, D24.  Safe. -/
  | capabilityUnbound (c : Capability)
  /-- `SingleShotCmd` or `PeriodicCmd` of a reserved encoding, which no operation writes.  Raised by
  ReadSample: U14.  Safe. -/
  | reservedEncoding
deriving DecidableEq, Repr

/-- What the machine refuses. -/
inductive Refusal
  /-- An instruction without a meaning.  No arm of this model raises it. -/
  | notModelled (mnemonic : String)
  /-- A request presented while SEQ is not IDLE.  Raised by step: R117, D29, U10.  Safe. -/
  | requestWhileBusy
  /-- The configuration `CLOCK_STRETCH = true`, and the commands of that configuration.  Raised by every
  meaning: R64, D19, U11.  Safe. -/
  | clockStretchConfiguration
  /-- A wire-command event whose code is none of R61 to R64: R71, log 9.  Raised by step.  Safe. -/
  | notACommand
deriving DecidableEq, Repr

/-- The whole state. -/
structure State where
  /-- the configuration, which no step changes (R16, R28; log 3) -/
  cfg : Config
  /-- the Device Handle `H` -/
  h : Handle
  /-- the Sample bank `S` -/
  sample : Sample
  /-- `ST.VALUE` (R22) -/
  stValue : Reg Word
  /-- `RES` (R23) -/
  res : Reg Result
  /-- `SEQ` (R24) -/
  seq : Seq
  /-- `TXBUF` (R25) -/
  txbuf : TxBuf
  /-- `RXBUF` (R25) -/
  rxbuf : RxBuf
  /-- `POLL_CNT`, 5 bits (R26) -/
  pollCnt : BitVec 5
  /-- the call trace since power-on, oldest first (R52; log 20) -/
  trace : List Event
  /-- the adapter's next answers, the script of the oracle; after its end the answers are free values
  (R52; log 5) -/
  adapter : List Answer
  /-- how many adapter calls were made: the counter the free values are applied to (log 5) -/
  calls : Nat
  /-- what the host presents next (R117, R136; log 7) -/
  host : List HostEvent
deriving DecidableEq, Repr

/-- The content of a register at power-on: its reset value, or no value, by the configuration (R30, D8; log 2). -/
def atPowerOn {α : Type} (cfg : Config) (resetValue : α) : Reg α :=
  match cfg.powerOnRegisters with
  | .resetValues => some resetValue
  | .noValue => none

/-- The handle after power-on: `H.CRC` by the strap (R30, R121).  The reset values of the others are the baseline
Init forces (R98) at the address of selector 0 and the lowest speed, all encoded 0 but the address, which R10 lets
be `0x44` or `0x45` only.  DESIGN CHOICE, unsafe, log 2. -/
def Handle.powerOn (cfg : Config) : Handle where
  addr := atPowerOn cfg 0x44
  mode := atPowerOn cfg .singleShot
  rep := atPowerOn cfg .low
  speed := atPowerOn cfg .mps05
  crc := if cfg.hasCrc then .ext else .unbound

/-- The Sample bank after power-on (R30).  The reset values are zero, DESIGN CHOICE, unsafe, log 2. -/
def Sample.powerOn (cfg : Config) : Sample where
  tRaw := atPowerOn cfg 0
  hRaw := atPowerOn cfg 0
  celsius := atPowerOn cfg 0
  fahrenheit := atPowerOn cfg 0
  humidity := atPowerOn cfg 0

/-- The block after power-on (R30, R121), with nothing recorded and nothing waiting.  The scratch buffers and
the poll counter are "unspecified, never read before written": zero is a DESIGN CHOICE, unsafe, log 12.  The
reset values of `ST.VALUE` and `RES` are those encoded 0, DESIGN CHOICE, unsafe, log 2. -/
def State.powerOn (cfg : Config) : State where
  cfg := cfg
  h := Handle.powerOn cfg
  sample := Sample.powerOn cfg
  stValue := atPowerOn cfg 0
  res := atPowerOn cfg .ok
  seq := .idle
  txbuf := ⟨0, 0⟩
  rxbuf := ⟨0, 0, 0, 0, 0, 0⟩
  pollCnt := 0
  trace := []
  adapter := []
  calls := 0
  host := []

/-- The machine right after reset (R30, R121), in the configuration of log 2, log 3 and log 4. -/
def State.reset : State := State.powerOn Config.standard

/-! ### Named updates, one per register -/

def State.setAddr (s : State) (a : BusAddr) : State := { s with h := { s.h with addr := some a } }
def State.setMode (s : State) (m : Mode) : State := { s with h := { s.h with mode := some m } }
def State.setRep (s : State) (r : Repeatability) : State := { s with h := { s.h with rep := some r } }
def State.setSpeed (s : State) (v : Speed) : State := { s with h := { s.h with speed := some v } }
def State.setCrc (s : State) (c : CrcBinding) : State := { s with h := { s.h with crc := c } }

/-- Both raw fields of the Sample (R85). -/
def State.setRaw (s : State) (t h : Word) : State :=
  { s with sample := { s.sample with tRaw := some t, hRaw := some h } }

/-- The three derived fields of the Sample (R87). -/
def State.setDerived (s : State) (c f h : Flt) : State :=
  { s with sample := { s.sample with celsius := some c, fahrenheit := some f, humidity := some h } }

def State.setStValue (s : State) (v : Word) : State := { s with stValue := some v }
def State.setRes (s : State) (r : Result) : State := { s with res := some r }
def State.setTx (s : State) (b0 b1 : Byte) : State := { s with txbuf := ⟨b0, b1⟩ }
def State.setRx (s : State) (b : RxBuf) : State := { s with rxbuf := b }
def State.setPollCnt (s : State) (n : BitVec 5) : State := { s with pollCnt := n }
def State.setSeq (s : State) (q : Seq) : State := { s with seq := q }
def State.setHost (s : State) (l : List HostEvent) : State := { s with host := l }

/-- One adapter call made: it and its reply are recorded and the script moves on (R52). -/
def State.record (s : State) (e : Event) : State :=
  { s with trace := s.trace ++ [e], adapter := s.adapter.tail, calls := s.calls + 1 }

end Sys2Proof.Machine
end

