-- ==== Sys2Proof/Machine/Flags.lean ====
section
/-! DEFINITION. The result register's codes and the classification of adapter statuses.  `RES` is the
block's only flag; there are no condition codes (10_state.md R23). -/

namespace Sys2Proof.Machine

/-- The numeric result codes of the host port (R101, D4). -/
def Result.code : Result → BitVec 3
  | .ok => 0
  | .fail => 1
  | .invalidParam => 2
  | .crcError => 3
  | .noData => 4

/-- A status of 0 means ok or valid, for every capability (R31 to R35). -/
def statusOk (st : Status) : Bool := st == 0

/-- The three classes of a Receive status (R37). -/
inductive RecvClass
  | recvOk
  | recvNack
  | recvFail
deriving DecidableEq, Repr

/-- The classification of a Receive status (R37); the test for 0 comes first, and `NACK_CODE` is negative,
so the order does not matter (R111). -/
def classifyRecv (cfg : Config) (st : Status) : RecvClass :=
  if st = 0 then .recvOk else if st = cfg.nackCode then .recvNack else .recvFail

/-- The zero-CRC guard: both CRC positions of a measurement frame are zero (R83, R130). -/
def zeroCrcGuard (b : RxBuf) : Bool := b.b2 == 0 && b.b5 == 0

end Sys2Proof.Machine
end

