-- ==== Sys2Proof/Machine/Operands.lean ====
section
/-! DEFINITION. Operand decoding (30_encoding.md R56 to R59), the register encodings (10_state.md R12 to R14),
the command tables keyed by them (R62 to R65), the field assembly of response frames (R66 to R68), and the
fixed parameters of 00_scope.md R6. -/

namespace Sys2Proof.Machine

/-! ### Parameters fixed by the source (R6) -/

/-- `ADDR_A`, the address of selector 0. -/
def addrA : BusAddr := 0x44
/-- `ADDR_B`, the address of selector 1. -/
def addrB : BusAddr := 0x45
/-- `N_POLL`. -/
def nPoll : Nat := 20
/-- `T_POLL_MS`. -/
def tPollMs : Nat := 1
/-- `T_RESET_MS`. -/
def tResetMs : Nat := 2
/-- `LEN_MEAS`. -/
def lenMeas : Nat := 6
/-- `LEN_STAT`. -/
def lenStat : Nat := 3

/-! ### Register encodings -/

/-- R12, D3. -/
def Mode.code : Mode → BitVec 2
  | .singleShot => 0
  | .periodic => 1
  | .art => 2
  | .reserved => 3

/-- R13, D3. -/
def Repeatability.code : Repeatability → BitVec 2
  | .low => 0
  | .medium => 1
  | .high => 2
  | .reserved => 3

/-- R14, D3. -/
def Speed.code : Speed → BitVec 3
  | .mps05 => 0
  | .mps1 => 1
  | .mps2 => 2
  | .mps4 => 3
  | .mps10 => 4
  | .reserved5 => 5
  | .reserved6 => 6
  | .reserved7 => 7

/-! ### Operands -/

/-- The repeatability operand: 0, 1, 2 are Low, Medium, High; every other value is out of range (R56). -/
def repOperand : Nat → Option Repeatability
  | 0 => some .low
  | 1 => some .medium
  | 2 => some .high
  | _ => none

/-- The speed operand: 0 to 4 are 0.5, 1, 2, 4, 10 MPS; every other value is out of range (R57). -/
def speedOperand : Nat → Option Speed
  | 0 => some .mps05
  | 1 => some .mps1
  | 2 => some .mps2
  | 3 => some .mps4
  | 4 => some .mps10
  | _ => none

/-- The selectors `ResolveAddr` recognises: the selector itself, the literal address, and its bus-framed
form (R58). -/
def selectorOperand (selector : Nat) : Option BusAddr :=
  if selector = 0x00 ∨ selector = 0x44 ∨ selector = 0x88 then some addrA
  else if selector = 0x01 ∨ selector = 0x45 ∨ selector = 0x8A then some addrB
  else none

/-- `ResolveAddr` with its default policy (R58, D6): the address register after a selector was resolved,
from what it held before.  Under `keepPrevious`, the other variant the source reports (C6), an unrecognised
selector leaves it as it was. -/
def resolveAddr (policy : AddrPolicy) (previous : Reg BusAddr) (selector : Nat) : Reg BusAddr :=
  match selectorOperand selector with
  | some a => some a
  | none =>
    match policy with
    | .defaultToA => some addrA
    | .keepPrevious => previous

/-- The heater operand: any nonzero value means on (R59, D18). -/
def heaterCmd (enabled : Nat) : Word := if enabled ≠ 0 then Code.heaterOn else Code.heaterOff

/-! ### Command tables (R65: looked up, never computed) -/

/-- `PeriodicCmd(speed, rep)` (R62); `none` for a reserved encoding, which the table does not have. -/
def periodicCmd : Speed → Repeatability → Option Word
  | .mps05, .low => some Code.periodicMps05Low
  | .mps05, .medium => some Code.periodicMps05Medium
  | .mps05, .high => some Code.periodicMps05High
  | .mps1, .low => some Code.periodicMps1Low
  | .mps1, .medium => some Code.periodicMps1Medium
  | .mps1, .high => some Code.periodicMps1High
  | .mps2, .low => some Code.periodicMps2Low
  | .mps2, .medium => some Code.periodicMps2Medium
  | .mps2, .high => some Code.periodicMps2High
  | .mps4, .low => some Code.periodicMps4Low
  | .mps4, .medium => some Code.periodicMps4Medium
  | .mps4, .high => some Code.periodicMps4High
  | .mps10, .low => some Code.periodicMps10Low
  | .mps10, .medium => some Code.periodicMps10Medium
  | .mps10, .high => some Code.periodicMps10High
  | .mps05, .reserved | .mps1, .reserved | .mps2, .reserved | .mps4, .reserved | .mps10, .reserved => none
  | .reserved5, _ | .reserved6, _ | .reserved7, _ => none

/-- `SingleShotCmd(rep)` for `CLOCK_STRETCH = false` (R63); `none` for the reserved encoding (U14). -/
def singleShotCmd : Repeatability → Option Word
  | .low => some Code.singleShotLow
  | .medium => some Code.singleShotMedium
  | .high => some Code.singleShotHigh
  | .reserved => none

/-! ### Response frames -/

/-- The bytes of a buffer in bus order. -/
def RxBuf.bytes (b : RxBuf) : List Byte := [b.b0, b.b1, b.b2, b.b3, b.b4, b.b5]

/-- `RXBUF` after a Receive of n bytes: bytes 0 to n-1 are the received ones, the others are kept (R32). -/
def RxBuf.receive (old : RxBuf) (n : Nat) (new : RxBuf) : RxBuf where
  b0 := if 0 < n then new.b0 else old.b0
  b1 := if 1 < n then new.b1 else old.b1
  b2 := if 2 < n then new.b2 else old.b2
  b3 := if 3 < n then new.b3 else old.b3
  b4 := if 4 < n then new.b4 else old.b4
  b5 := if 5 < n then new.b5 else old.b5

/-- `T_raw` of a measurement frame, and the word of a status frame (R68). -/
def RxBuf.word0 (b : RxBuf) : Word := word16 b.b0 b.b1

/-- `H_raw` of a measurement frame (R68). -/
def RxBuf.word3 (b : RxBuf) : Word := word16 b.b3 b.b4

end Sys2Proof.Machine
end

