-- ==== Sys2Proof/Machine/Convert.lean ====
section
/-! DEFINITION. The converter: raw counts to degrees Celsius, degrees Fahrenheit and percent relative
humidity (41_sample_acquisition.md R88 to R91).  The exact rationals are normative; what is delivered is their
rounding to the open format `FLT`. -/

namespace Sys2Proof.Machine

/-- `CelsiusQ(t) = (t / 65535) * 175 - 45` (R88). -/
def celsiusQ (t : Word) : Rat := (t.toNat : Rat) / 65535 * 175 - 45

/-- `FahrenheitQ(t) = (t / 65535) * 315 - 49` (R89). -/
def fahrenheitQ (t : Word) : Rat := (t.toNat : Rat) / 65535 * 315 - 49

/-- `HumidityQ(h) = (h / 65535) * 100` (R90). -/
def humidityQ (h : Word) : Rat := (h.toNat : Rat) / 65535 * 100

/-- The three derived fields written from two raw counts (R87). -/
def State.convert (s : State) (t h : Word) : State :=
  s.setDerived (Config.roundFlt (celsiusQ t)) (Config.roundFlt (fahrenheitQ t))
    (Config.roundFlt (humidityQ h))

end Sys2Proof.Machine
end

