-- ==== Sys2Proof/Machine/Ops.lean ====
section
/-! DEFINITION. The operations every meaning is written in: presenting and returning a result, the adapter
calls of 20_memory.md, and the poll loop of 41_sample_acquisition.md R82.

A primitive that goes on takes the rest of the operation as its last argument, so that a meaning reads line
by line like the spec's pseudocode. -/

namespace Sys2Proof.Machine

/-- What an operation, or the rest of one, answers. -/
abbrev Out := Host.Outcome State Fault Refusal

/-! ### The result: the exception analogue (60_exceptions.md) -/

/-- `return <Result>`: writes `RES`, sets `SEQ` to `IDLE`, hands control back to the host, and nothing else
(R113).  There is no return from it, because nothing was entered (R115). -/
def returnResult (r : Result) (s : State) : Out := .next ((s.setRes r).setSeq .idle)

/-! ### The sequencer -/

/-- `SEQ` at a line of an operation (R24; log 18). -/
def State.goto (s : State) (op : Operation) (line : Nat) : State := s.setSeq (.running op line)

/-- The configuration the spec specifies: with `CLOCK_STRETCH = true` everything is refused (R64, D19, U11). -/
def inSpecifiedConfig (s : State) (k : State → Out) : Out :=
  if s.cfg.clockStretch then .refused .clockStretchConfiguration else k s

/-- An operation leaves `IDLE` and stands at its first line (R24). -/
def startOperation (op : Operation) (s : State) (k : State → Out) : Out :=
  inSpecifiedConfig s fun s => k (s.goto op 1)

/-! ### The adapter (R31 to R37, R52, R119) -/

/-- The k-th answer from now: the script's, and after its end a free value (R52, U4; log 5). -/
def State.answerAt (s : State) (k : Nat) : Answer :=
  match s.adapter[k]? with
  | some a => a
  | none =>
    let n := s.calls + k
    .returns (Config.freeStatus n)
      ⟨Config.freeByte n 0, Config.freeByte n 1, Config.freeByte n 2, Config.freeByte n 3,
       Config.freeByte n 4, Config.freeByte n 5⟩

/-- The capability a call needs (R119). -/
def Call.capability : Call → Capability
  | .send _ _ _ => .send
  | .recv _ _ => .recv
  | .delay _ => .delay
  | .platformInit => .platformInit
  | .platformDeInit => .platformDeInit
  | .crc _ _ => .crcCheck

/-- Whether a capability is bound: its strap (R16). -/
def capabilityBound (cfg : Config) : Capability → Bool
  | .send => cfg.hasSend
  | .recv => cfg.hasRecv
  | .delay => cfg.hasDelay
  | .platformInit => cfg.hasInit
  | .platformDeInit => cfg.hasDeInit
  | .crcCheck => cfg.hasCrc

/-- What the trace records a call to have returned: a Receive its status and its n bytes, another call its
status (R52). -/
def Call.reply (c : Call) (st : Status) (buf : RxBuf) : Reply :=
  match c with
  | .recv _ n => .received st (buf.bytes.take n)
  | _ => .status st

/-- One adapter call, whole and recorded (R43, R48, R52).  A capability that is not bound is a fault (R16,
D24).  A call that never returns leaves the operation at its line for good (R136, U12; log 6). -/
def callAdapter (c : Call) (s : State) (k : Status → RxBuf → State → Out) : Out :=
  if capabilityBound s.cfg c.capability then
    match s.answerAt 0 with
    | .returns st buf => k st buf (s.record ⟨c, c.reply st buf⟩)
    | .never => .next (s.record ⟨c, .never⟩)
  else .fault (.capabilityUnbound c.capability)

/-- The read of `H.ADDR` as the address of a Send or Receive (R10, R29). -/
def readAddr (s : State) (k : BusAddr → Out) : Out :=
  match s.h.addr with
  | some a => k a
  | none => .fault (.registerHoldsNoValue .addr)

/-- `WriteCommand(cmd)`: the two bytes, the more significant first, in one Send to `H.ADDR`; what goes on
is told whether the status was 0 (R31, R38, R39). -/
def writeCommand (cmd : Word) (s : State) (k : Bool → State → Out) : Out :=
  readAddr s fun a =>
    callAdapter (.send a (hiByte cmd) (loByte cmd)) (s.setTx (hiByte cmd) (loByte cmd)) fun st _ s =>
      k (statusOk st) s

/-- `(st, RXBUF[0..n-1]) <- BusRecv(H.ADDR, n)` (R32).  After a status that is not 0 the buffer holds
whatever the adapter left there (R25, U5). -/
def busRecv (n : Nat) (s : State) (k : Status → State → Out) : Out :=
  readAddr s fun a =>
    callAdapter (.recv a n) s fun st buf s => k st (s.setRx (s.rxbuf.receive n buf))

/-- `Delay(ms)`, its status ignored (R33, D14). -/
def delay (ms : Nat) (s : State) (k : State → Out) : Out :=
  callAdapter (.delay ms) s fun _ _ s => k s

/-- `PlatformInit()` or `PlatformDeInit()` (R34); what goes on is told whether the status was 0. -/
def platformCall (c : Call) (s : State) (k : Bool → State → Out) : Out :=
  callAdapter c s fun st _ s => k (statusOk st) s

/-- `CrcCheck(v, c)`: by the slot `H.CRC` the adapter's check, the default check which always holds and
calls nothing, or a fault (R36). -/
def crcCheck (v : Word) (c : Byte) (s : State) (k : Bool → State → Out) : Out :=
  match s.h.crc with
  | .ext => callAdapter (.crc v c) s fun st _ s => k (statusOk st) s
  | .default => k true s
  | .unbound => .fault .crcUnbound

/-- The poll loop with `left` attempts left (R82): a Receive of 6 bytes; after a failed one a Delay of 1 ms,
the last attempt's included (D9, C4).  What goes on is told whether an attempt succeeded. -/
def pollLoop : Nat → State → (Bool → State → Out) → Out
  | 0, s, k => k false s
  | left + 1, s, k =>
    busRecv lenMeas ((s.setPollCnt (BitVec.ofNat 5 (nPoll - left))).goto .readSample 3) fun st s =>
      if statusOk st then k true s
      else delay tPollMs (s.goto .readSample 4) fun s => pollLoop left s k

end Sys2Proof.Machine
end

