-- ==== Sys2Proof/Machine/StatusControl.lean ====
section
/-! DEFINITION. The status and control operations (42_status_control.md R93 to R97). -/

namespace Sys2Proof.Machine

/-- `ReadStatus` (R93).  No class of a failed Receive is special here. -/
def execReadStatus (s : State) : Out :=
  startOperation .readStatus s fun s =>
  writeCommand Code.readStatus s fun sent s =>
  if sent then
    busRecv lenStat (s.goto .readStatus 2) fun st s =>
    if statusOk st then
      let v := s.rxbuf.word0
      crcCheck v s.rxbuf.b2 ((s.setStValue v).goto .readStatus 5) fun ok s =>
      if ok then returnResult .ok s
      else returnResult .crcError s
    else returnResult .fail s
  else returnResult .fail s

/-- `ClearStatus` (R94). -/
def execClearStatus (s : State) : Out :=
  startOperation .clearStatus s fun s =>
  writeCommand Code.clearStatus s fun sent s =>
  if sent then returnResult .ok s
  else returnResult .fail s

/-- `SetHeater enabled` (R95). -/
def execSetHeater (enabled : Nat) (s : State) : Out :=
  startOperation .setHeater s fun s =>
  writeCommand (heaterCmd enabled) (s.goto .setHeater 2) fun sent s =>
  if sent then returnResult .ok s
  else returnResult .fail s

/-- The write of `H.ADDR` from a selector, step 1 of Init and the whole of SetAddressI2C (R58, D7). -/
def State.resolve (s : State) (selector : Nat) : State :=
  { s with h := { s.h with addr := resolveAddr s.cfg.addrDefaultPolicy s.h.addr selector } }

/-- `SetAddressI2C selector` (R96): no adapter call. -/
def execSetAddressI2C (selector : Nat) (s : State) : Out :=
  startOperation .setAddressI2C s fun s =>
  returnResult .ok (s.resolve selector)

end Sys2Proof.Machine
end

