-- ==== Sys2Proof/Machine/InitTeardown.lean ====
section
/-! DEFINITION. Init and DeInit (43_init_teardown.md R98 to R100), and the hardware reset input
(70_reset_and_hazards.md R122). -/

namespace Sys2Proof.Machine

/-- The capability check of Init, step 2 (R98). -/
def requiredBound (cfg : Config) : Bool := cfg.hasSend && cfg.hasRecv && cfg.hasDelay

/-- Step 3 of Init: the default CRC check is installed where nothing is bound (R15, R98). -/
def State.installCrc (s : State) : State :=
  match s.h.crc with
  | .unbound => s.setCrc .default
  | .ext | .default => s

/-- Steps 5 to 7 of Init: the forced baseline, the soft reset, the settling delay (R98). -/
def initBaseline (s : State) : Out :=
  writeCommand Code.softReset (((s.setMode .singleShot).setRep .low).goto .init 6) fun sent s =>
  if sent then delay tResetMs (s.goto .init 7) fun s => returnResult .ok s
  else returnResult .fail s

/-- `Init selector` (R98): it writes as it goes (R114, R124). -/
def execInit (selector : Nat) (s : State) : Out :=
  startOperation .init s fun s =>
  let s := s.resolve selector
  if requiredBound s.cfg then
    let s := s.installCrc
    if s.cfg.hasInit then
      platformCall .platformInit (s.goto .init 4) fun ok s =>
      if ok then initBaseline s
      else returnResult .fail s
    else initBaseline s
  else returnResult .invalidParam s

/-- `DeInit` (R99): nothing is sent to the sensor and no handle register changes. -/
def execDeInit (s : State) : Out :=
  startOperation .deInit s fun s =>
  if s.cfg.hasDeInit then
    platformCall .platformDeInit (s.goto .deInit 2) fun ok s =>
    if ok then returnResult .ok s
    else returnResult .fail s
  else returnResult .ok s

/-- The hardware reset input: exactly the power-on state, a running operation abandoned without a result,
nothing sent (R122).  What is outside the block stays: the configuration, the record of past calls, the
adapter, and the host's further events (log 8). -/
def State.hardwareReset (s : State) : State :=
  { State.powerOn s.cfg with trace := s.trace, adapter := s.adapter, calls := s.calls, host := s.host }

end Sys2Proof.Machine
end

