-- ==== Sys2Proof/Machine/ModeConfig.lean ====
section
/-! DEFINITION. The mode configuration operations (40_mode_config.md R75 to R79).  All three validate, then
send, then, only on send success, write the handle fields they own (R75). -/

namespace Sys2Proof.Machine

/-- `SetSingleShot rep` (R76). -/
def execSetSingleShot (rep : Nat) (s : State) : Out :=
  startOperation .setSingleShot s fun s =>
  match repOperand rep with
  | none => returnResult .invalidParam s
  | some r =>
    writeCommand Code.stopPeriodic (s.goto .setSingleShot 2) fun sent s =>
    if sent then returnResult .ok ((s.setMode .singleShot).setRep r)
    else returnResult .fail s

/-- `SetPeriodic speed, rep` (R77). -/
def execSetPeriodic (speed rep : Nat) (s : State) : Out :=
  startOperation .setPeriodic s fun s =>
  match speedOperand speed, repOperand rep with
  | some v, some r =>
    match periodicCmd v r with
    | none => .fault .reservedEncoding
    | some cmd =>
      writeCommand cmd (s.goto .setPeriodic 2) fun sent s =>
      if sent then returnResult .ok (((s.setMode .periodic).setSpeed v).setRep r)
      else returnResult .fail s
  | _, _ => returnResult .invalidParam s

/-- `SetART` (R78). -/
def execSetART (s : State) : Out :=
  startOperation .setART s fun s =>
  writeCommand Code.art s fun sent s =>
  if sent then returnResult .ok (s.setMode .art)
  else returnResult .fail s

end Sys2Proof.Machine
end

