-- ==== Sys2Proof/Machine/Reserved.lean ====
section
/-! DEFINITION. The reserved operation numbers 0xA to 0xF (30_encoding.md R69, D22). -/

namespace Sys2Proof.Machine

/-- A reserved operation number: no adapter call, no register but `RES`, `InvalidParam` (R69). -/
def reservedOperation (s : State) : Out := inSpecifiedConfig s (returnResult .invalidParam)

def execReservedOpA (s : State) : Out := reservedOperation s
def execReservedOpB (s : State) : Out := reservedOperation s
def execReservedOpC (s : State) : Out := reservedOperation s
def execReservedOpD (s : State) : Out := reservedOperation s
def execReservedOpE (s : State) : Out := reservedOperation s
def execReservedOpF (s : State) : Out := reservedOperation s

end Sys2Proof.Machine
end

