-- ==== Sys2Proof/Machine/SampleAcquisition.lean ====
section
/-! DEFINITION. ReadSample (41_sample_acquisition.md R80 to R87, R92).  Lines of `SEQ`: 1 the dispatch, 2 the
command, 3 the Receive, 4 the Delay, 5 the guard, 6 the decode, 7 and 8 the CRC checks, 9 the conversion
(log 18). -/

namespace Sys2Proof.Machine

/-- The common tail: decode and write the raw counts, check the CRCs, temperature first, convert (R85, R86,
R87). -/
def sampleTail (s : State) : Out :=
  let t := s.rxbuf.word0
  let h := s.rxbuf.word3
  crcCheck t s.rxbuf.b2 ((s.setRaw t h).goto .readSample 7) fun tOk s =>
  if tOk then
    crcCheck h s.rxbuf.b5 (s.goto .readSample 8) fun hOk s =>
    if hOk then returnResult .ok (s.convert t h)
    else returnResult .crcError s
  else returnResult .crcError s

/-- The SingleShot path: the measurement command, the poll loop, the zero-CRC guard, the tail (R81, R82,
R83). -/
def singleShotPath (s : State) : Out :=
  match s.h.rep with
  | none => .fault (.registerHoldsNoValue .rep)
  | some r =>
    match singleShotCmd r with
    | none => .fault .reservedEncoding
    | some cmd =>
      writeCommand cmd (s.goto .readSample 2) fun sent s =>
      if sent then
        pollLoop nPoll s fun got s =>
        if got then
          if zeroCrcGuard s.rxbuf then returnResult .fail s
          else sampleTail s
        else returnResult .fail s
      else returnResult .fail s

/-- The Periodic and ART path: one fetch, one Receive, no retry (R84). -/
def fetchPath (s : State) : Out :=
  writeCommand Code.fetchData (s.goto .readSample 2) fun sent s =>
  if sent then
    busRecv lenMeas (s.goto .readSample 3) fun st s =>
    match classifyRecv s.cfg st with
    | .recvOk => sampleTail s
    | .recvNack => returnResult .noData s
    | .recvFail => returnResult .fail s
  else returnResult .fail s

/-- `ReadSample` (R80): the path is chosen by `H.MODE`. -/
def execReadSample (s : State) : Out :=
  startOperation .readSample s fun s =>
  match s.h.mode with
  | none => .fault (.registerHoldsNoValue .mode)
  | some .singleShot => singleShotPath s
  | some .periodic => fetchPath s
  | some .art => fetchPath s
  | some .reserved => returnResult .invalidParam s

end Sys2Proof.Machine
end

