-- ==== Sys2Proof/Machine/WireCommands.lean ====
section
/-! DEFINITION. The wire commands, the `CMD16` rows of the opcode table (30_encoding.md R60 to R64).

A wire command by itself is one `WriteCommand` of its code (20_memory.md R38): `TXBUF` is written, one Send
to `H.ADDR` is made and recorded, and nothing else happens.  What the status means is decided by the operation
that emits the command, so by itself it writes no `RES` (log 9). -/

namespace Sys2Proof.Machine

/-- One bare `WriteCommand(cmd)` (R38). -/
def issueCommand (cmd : Word) (s : State) : Out :=
  inSpecifiedConfig s fun s =>
  writeCommand cmd (s.setSeq .command) fun _ s => .next (s.setSeq .idle)

/-- A command of the clock-stretching configuration, which is never emitted and is refused (R64, D19, U11). -/
def refuseClockStretch (_ : State) : Out := .refused .clockStretchConfiguration

/-! R61, the fixed commands. -/

def execCmdSoftReset (s : State) : Out := issueCommand Code.softReset s
def execCmdStopPeriodic (s : State) : Out := issueCommand Code.stopPeriodic s
def execCmdFetchData (s : State) : Out := issueCommand Code.fetchData s
def execCmdReadStatus (s : State) : Out := issueCommand Code.readStatus s
def execCmdClearStatus (s : State) : Out := issueCommand Code.clearStatus s
def execCmdHeaterOn (s : State) : Out := issueCommand Code.heaterOn s
def execCmdHeaterOff (s : State) : Out := issueCommand Code.heaterOff s
def execCmdART (s : State) : Out := issueCommand Code.art s

/-! R62, the periodic table. -/

def execCmdPeriodicMps05Low (s : State) : Out := issueCommand Code.periodicMps05Low s
def execCmdPeriodicMps05Medium (s : State) : Out := issueCommand Code.periodicMps05Medium s
def execCmdPeriodicMps05High (s : State) : Out := issueCommand Code.periodicMps05High s
def execCmdPeriodicMps1Low (s : State) : Out := issueCommand Code.periodicMps1Low s
def execCmdPeriodicMps1Medium (s : State) : Out := issueCommand Code.periodicMps1Medium s
def execCmdPeriodicMps1High (s : State) : Out := issueCommand Code.periodicMps1High s
def execCmdPeriodicMps2Low (s : State) : Out := issueCommand Code.periodicMps2Low s
def execCmdPeriodicMps2Medium (s : State) : Out := issueCommand Code.periodicMps2Medium s
def execCmdPeriodicMps2High (s : State) : Out := issueCommand Code.periodicMps2High s
def execCmdPeriodicMps4Low (s : State) : Out := issueCommand Code.periodicMps4Low s
def execCmdPeriodicMps4Medium (s : State) : Out := issueCommand Code.periodicMps4Medium s
def execCmdPeriodicMps4High (s : State) : Out := issueCommand Code.periodicMps4High s
def execCmdPeriodicMps10Low (s : State) : Out := issueCommand Code.periodicMps10Low s
def execCmdPeriodicMps10Medium (s : State) : Out := issueCommand Code.periodicMps10Medium s
def execCmdPeriodicMps10High (s : State) : Out := issueCommand Code.periodicMps10High s

/-! R63, single shot without clock stretching. -/

def execCmdSingleShotLow (s : State) : Out := issueCommand Code.singleShotLow s
def execCmdSingleShotMedium (s : State) : Out := issueCommand Code.singleShotMedium s
def execCmdSingleShotHigh (s : State) : Out := issueCommand Code.singleShotHigh s

/-! R64, single shot with clock stretching. -/

def execCmdSingleShotStretchLow (s : State) : Out := refuseClockStretch s
def execCmdSingleShotStretchMedium (s : State) : Out := refuseClockStretch s
def execCmdSingleShotStretchHigh (s : State) : Out := refuseClockStretch s

end Sys2Proof.Machine
end

