-- ==== Sys2Proof/Machine/Dispatch.lean ====
section
/-! DEFINITION. One arm per instruction. -/

namespace Sys2Proof.Machine

def exec (i : Instr) (s : State) : Host.Outcome State Fault Refusal :=
  match i with
  -- REQ16: the ten operations (R53)
  | .init selector => Sys2Proof.Machine.execInit selector s
  | .deInit => Sys2Proof.Machine.execDeInit s
  | .setSingleShot rep => Sys2Proof.Machine.execSetSingleShot rep s
  | .setPeriodic speed rep => Sys2Proof.Machine.execSetPeriodic speed rep s
  | .setART => Sys2Proof.Machine.execSetART s
  | .readSample => Sys2Proof.Machine.execReadSample s
  | .readStatus => Sys2Proof.Machine.execReadStatus s
  | .clearStatus => Sys2Proof.Machine.execClearStatus s
  | .setHeater enabled => Sys2Proof.Machine.execSetHeater enabled s
  | .setAddressI2C selector => Sys2Proof.Machine.execSetAddressI2C selector s
  -- REQ16: the reserved operation numbers (R69)
  | .reservedOpA => Sys2Proof.Machine.execReservedOpA s
  | .reservedOpB => Sys2Proof.Machine.execReservedOpB s
  | .reservedOpC => Sys2Proof.Machine.execReservedOpC s
  | .reservedOpD => Sys2Proof.Machine.execReservedOpD s
  | .reservedOpE => Sys2Proof.Machine.execReservedOpE s
  | .reservedOpF => Sys2Proof.Machine.execReservedOpF s
  -- CMD16: the wire commands (R61 to R64)
  | .cmdSoftReset => Sys2Proof.Machine.execCmdSoftReset s
  | .cmdStopPeriodic => Sys2Proof.Machine.execCmdStopPeriodic s
  | .cmdFetchData => Sys2Proof.Machine.execCmdFetchData s
  | .cmdReadStatus => Sys2Proof.Machine.execCmdReadStatus s
  | .cmdClearStatus => Sys2Proof.Machine.execCmdClearStatus s
  | .cmdHeaterOn => Sys2Proof.Machine.execCmdHeaterOn s
  | .cmdHeaterOff => Sys2Proof.Machine.execCmdHeaterOff s
  | .cmdART => Sys2Proof.Machine.execCmdART s
  | .cmdPeriodicMps05Low => Sys2Proof.Machine.execCmdPeriodicMps05Low s
  | .cmdPeriodicMps05Medium => Sys2Proof.Machine.execCmdPeriodicMps05Medium s
  | .cmdPeriodicMps05High => Sys2Proof.Machine.execCmdPeriodicMps05High s
  | .cmdPeriodicMps1Low => Sys2Proof.Machine.execCmdPeriodicMps1Low s
  | .cmdPeriodicMps1Medium => Sys2Proof.Machine.execCmdPeriodicMps1Medium s
  | .cmdPeriodicMps1High => Sys2Proof.Machine.execCmdPeriodicMps1High s
  | .cmdPeriodicMps2Low => Sys2Proof.Machine.execCmdPeriodicMps2Low s
  | .cmdPeriodicMps2Medium => Sys2Proof.Machine.execCmdPeriodicMps2Medium s
  | .cmdPeriodicMps2High => Sys2Proof.Machine.execCmdPeriodicMps2High s
  | .cmdPeriodicMps4Low => Sys2Proof.Machine.execCmdPeriodicMps4Low s
  | .cmdPeriodicMps4Medium => Sys2Proof.Machine.execCmdPeriodicMps4Medium s
  | .cmdPeriodicMps4High => Sys2Proof.Machine.execCmdPeriodicMps4High s
  | .cmdPeriodicMps10Low => Sys2Proof.Machine.execCmdPeriodicMps10Low s
  | .cmdPeriodicMps10Medium => Sys2Proof.Machine.execCmdPeriodicMps10Medium s
  | .cmdPeriodicMps10High => Sys2Proof.Machine.execCmdPeriodicMps10High s
  | .cmdSingleShotLow => Sys2Proof.Machine.execCmdSingleShotLow s
  | .cmdSingleShotMedium => Sys2Proof.Machine.execCmdSingleShotMedium s
  | .cmdSingleShotHigh => Sys2Proof.Machine.execCmdSingleShotHigh s
  | .cmdSingleShotStretchLow => Sys2Proof.Machine.execCmdSingleShotStretchLow s
  | .cmdSingleShotStretchMedium => Sys2Proof.Machine.execCmdSingleShotStretchMedium s
  | .cmdSingleShotStretchHigh => Sys2Proof.Machine.execCmdSingleShotStretchHigh s

end Sys2Proof.Machine
end

