-- ==== Sys2Proof/Machine/Fetch.lean ====
section
/-! DEFINITION. Where the next instruction comes from.  The block has no instruction memory and no fetch
(10_state.md R24, 20_memory.md R51): the host presents one event at a time (60_exceptions.md R117). -/

namespace Sys2Proof.Machine

/-- What stands at the head of the host's events. -/
inductive Fetched
  /-- the host presents nothing: the block is simply idle, or hangs (R120, R136) -/
  | nothing
  /-- the reset input (R122); the state is the one after it -/
  | reset (s : State)
  /-- an instruction, and the state without its event -/
  | instr (i : Instr) (s : State)
  /-- a request or command while SEQ is not IDLE (R117, D29) -/
  | busy
  /-- a command event whose code is no command (R71) -/
  | notACommand
deriving DecidableEq, Repr

/-- The instruction of an event: the request decoder for a request word, the command decoder for a command
code (R54, R60). -/
def decodeEvent : HostEvent → Option Instr
  | .request w => some (decodeRequest w)
  | .command w => decodeCommand w
  | .rst => none

/-- Takes the host's next event (R117, R122; log 7). -/
def fetch (s : State) : Fetched :=
  match s.host with
  | [] => .nothing
  | .rst :: rest => .reset ((s.setHost rest).hardwareReset)
  | e :: rest =>
    if s.seq = .idle then
      match decodeEvent e with
      | some i => .instr i (s.setHost rest)
      | none => .notACommand
    else .busy

/-- The event that presents a number of the opcode table, in the format the table lookup reads it in
(log 10). -/
def tableEvent (nbits w : Nat) : HostEvent :=
  let v := BitVec.ofNat 16 (w % 2 ^ min nbits 16)
  match tableFormat v with
  | .req16 => .request v
  | .cmd16 => .command v

/-- The state with a number of the opcode table presented as the host's next event and `SEQ` idle, which is
all a request needs (R117). -/
def State.present (s : State) (nbits w : Nat) : State :=
  (s.setHost (tableEvent nbits w :: s.host)).setSeq .idle

end Sys2Proof.Machine
end

