-- ==== Sys2Proof/Machine/Step.lean ====
section
/-! DEFINITION. One step of the machine: the host's next event, taken and run to its result
(60_exceptions.md R117; log 1). -/

namespace Sys2Proof.Machine

def step (s : State) : Host.Outcome State Fault Refusal :=
  match fetch s with
  | .nothing => .next s
  | .reset t => .next t
  | .instr i t => exec i t
  | .busy => .refused .requestWhileBusy
  | .notACommand => .refused .notACommand

/-- `s` with an instruction of the opcode table presented as the next event (log 7, log 10). -/
def State.withFetchWord (s : State) (nbits w : Nat) : State := s.present nbits w

end Sys2Proof.Machine
end

