-- ==== Sys2Proof/Safety.lean ====
section
/-! DEFINITION. The terms the statements use: the invariant of the machine, the state from which nothing can
fault, the premise that the adapter returns, and the effect of answered calls. -/

namespace Sys2Proof.Machine

/-! ### What holds in every state -/

/-- No register is without a value. -/
abbrev EveryRegisterHoldsAValue (s : State) : Prop :=
  s.h.addr ≠ none ∧ s.h.mode ≠ none ∧ s.h.rep ≠ none ∧ s.h.speed ≠ none ∧
  s.sample.tRaw ≠ none ∧ s.sample.hRaw ≠ none ∧ s.sample.celsius ≠ none ∧ s.sample.fahrenheit ≠ none ∧
  s.sample.humidity ≠ none ∧ s.stValue ≠ none ∧ s.res ≠ none

/-- Legal contents of the handle (R10, R12, R13, R14, R17), of `H.CRC` (R15, R30) and of the poll counter
(R26), the constraint on `NACK_CODE` (R37), the model's own count of recorded calls (log 5), and that a block
whose registers have reset values never has one without a value (log 2). -/
structure Inv (s : State) : Prop where
  nack : s.cfg.nackNegative = true
  addr : s.h.addr = none ∨ s.h.addr = some 0x44#7 ∨ s.h.addr = some 0x45#7
  mode : s.h.mode ≠ some .reserved
  rep : s.h.rep ≠ some .reserved
  speed : s.h.speed ≠ some .reserved5 ∧ s.h.speed ≠ some .reserved6 ∧ s.h.speed ≠ some .reserved7
  crc : s.h.crc = .ext ↔ s.cfg.hasCrc = true
  poll : s.pollCnt.toNat ≤ 20
  counted : s.calls = s.trace.length
  held : s.cfg.powerOnRegisters = .resetValues → EveryRegisterHoldsAValue s

/-! ### From where nothing can fault -/

/-- The configuration and handle of a block after an Init that returned `Ok` (R123): the specified
configuration, the required capabilities bound, every register an operation can read written, a CRC check
bound. -/
structure Ready (s : State) : Prop where
  noStretch : s.cfg.clockStretch = false
  send : s.cfg.hasSend = true
  recv : s.cfg.hasRecv = true
  delay : s.cfg.hasDelay = true
  addr : s.h.addr ≠ none
  mode : s.h.mode ≠ none
  rep : s.h.rep = some .low ∨ s.h.rep = some .medium ∨ s.h.rep = some .high
  crc : s.h.crc ≠ .unbound
  ext : s.h.crc = .ext → s.cfg.hasCrc = true

/-- Every adapter call returns: the premise R136 asks of any claim that an operation ends. -/
def AdapterReturns (s : State) : Prop := ∀ a ∈ s.adapter, a ≠ .never

/-! ### Answered calls -/

/-- The status of the k-th answer from now, none if that call never returns. -/
def State.statusAt (s : State) (k : Nat) : Option Status :=
  match s.answerAt k with
  | .returns st _ => some st
  | .never => none

/-- The trace entry of a call that gets the k-th answer from now. -/
def State.eventAt (s : State) (k : Nat) (c : Call) : Event :=
  match s.answerAt k with
  | .returns st buf => ⟨c, c.reply st buf⟩
  | .never => ⟨c, .never⟩

/-- The state after a Send of two bytes that returned `st` (R31, R38). -/
def State.afterSend (s : State) (a : BusAddr) (b0 b1 : Byte) (st : Status) : State :=
  (s.setTx b0 b1).record ⟨.send a b0 b1, .status st⟩

/-- The state after a Receive of n bytes that returned `st` and left `buf` (R32). -/
def State.afterRecv (s : State) (a : BusAddr) (n : Nat) (st : Status) (buf : RxBuf) : State :=
  (s.record ⟨.recv a n, .received st (buf.bytes.take n)⟩).setRx (s.rxbuf.receive n buf)

/-- The state after another call that returned `st`. -/
def State.afterCall (s : State) (c : Call) (st : Status) : State := s.record ⟨c, .status st⟩

/-- The state after `return r` (R113). -/
def State.finish (s : State) (r : Result) : State := { s with res := some r, seq := .idle }

/-- The calls of k failed polls after the Send: k times a Receive and a Delay (R82, D9). -/
def State.pollEvents (s : State) (a : BusAddr) (k : Nat) : List Event :=
  (List.range k).flatMap fun j =>
    [s.eventAt (1 + 2 * j) (.recv a 6), s.eventAt (2 + 2 * j) (.delay 1)]

/-- What a single ReadSample leaves as it was, whatever its result (R92, R113, R114). -/
def KeptByRead (s t : State) : Prop :=
  t.cfg = s.cfg ∧ t.h = s.h ∧ t.stValue = s.stValue ∧ t.host = s.host ∧ t.seq = .idle

/-! ### Outcomes -/

/-- A function applied to the next state, if there is one. -/
def mapNext (f : State → State) : Out → Out
  | .next t => .next (f t)
  | .fault r => .fault r
  | .refused r => .refused r

/-- The state with other contents in the output registers: Sample, `ST.VALUE`, `RES`. -/
def State.withOutputs (s : State) (x : Sample) (v : Reg Word) (r : Reg Result) : State :=
  { s with sample := x, stValue := v, res := r }

/-- The state with other contents in the scratch registers: `TXBUF`, `RXBUF`, `POLL_CNT`. -/
def State.withScratch (s : State) (tx : TxBuf) (rx : RxBuf) (n : BitVec 5) : State :=
  { s with txbuf := tx, rxbuf := rx, pollCnt := n }

/-- The state with another `H.SPEED`. -/
def State.withSpeed (s : State) (v : Reg Speed) : State := { s with h := { s.h with speed := v } }

/-! ### What a call may look like -/

/-- The codes the engine can emit with `CLOCK_STRETCH = false` (R61, R62, R63, R71). -/
def emittable : List Word := (fixedRows ++ periodicRows ++ singleShotRows).map (·.code)

/-- A call the engine may make: a Send of a code of the table, a Receive of 6 or 3 bytes, both to one of the
two addresses, a Delay of 1 or 2 ms (R33, R41, R45, R71). -/
def Call.legal : Call → Prop
  | .send a b0 b1 => (a = 0x44#7 ∨ a = 0x45#7) ∧ word16 b0 b1 ∈ emittable
  | .recv a n => (a = 0x44#7 ∨ a = 0x45#7) ∧ (n = 6 ∨ n = 3)
  | .delay ms => ms = 1 ∨ ms = 2
  | .platformInit | .platformDeInit | .crc _ _ => True

def Call.isSend : Call → Bool
  | .send _ _ _ => true
  | _ => false

def Call.isRecv : Call → Bool
  | .recv _ _ => true
  | _ => false

def Call.isDelay : Call → Bool
  | .delay _ => true
  | _ => false

def Call.isCrc : Call → Bool
  | .crc _ _ => true
  | _ => false

def Call.isPlatform : Call → Bool
  | .platformInit | .platformDeInit => true
  | _ => false

/-- How many calls of a kind a trace holds. -/
def countCalls (p : Call → Bool) (l : List Event) : Nat := l.countP fun e => p e.call

/-- The results each operation can return, and with what it needs: the table of R107. -/
def mayReturn (s : State) : Instr → Result → Bool
  | .init _, r => r == .ok || r == .fail || r == .invalidParam
  | .deInit, r => r == .ok || (r == .fail && s.cfg.hasDeInit)
  | .setSingleShot _, r | .setPeriodic _ _, r => r == .ok || r == .fail || r == .invalidParam
  | .setART, r | .clearStatus, r | .setHeater _, r => r == .ok || r == .fail
  | .readStatus, r => r == .ok || r == .fail || (r == .crcError && s.h.crc == .ext)
  | .readSample, r =>
    match s.h.mode with
    | some .singleShot => r == .ok || r == .fail || (r == .crcError && s.h.crc == .ext)
    | some .periodic | some .art =>
      r == .ok || r == .fail || r == .noData || (r == .crcError && s.h.crc == .ext)
    | some .reserved => r == .invalidParam
    | none => false
  | .setAddressI2C _, r => r == .ok
  | .reservedOpA, r | .reservedOpB, r | .reservedOpC, r | .reservedOpD, r | .reservedOpE, r
  | .reservedOpF, r => r == .invalidParam
  | .cmdSoftReset, _ | .cmdStopPeriodic, _ | .cmdFetchData, _ | .cmdReadStatus, _ | .cmdClearStatus, _
  | .cmdHeaterOn, _ | .cmdHeaterOff, _ | .cmdART, _ => false
  | .cmdPeriodicMps05Low, _ | .cmdPeriodicMps05Medium, _ | .cmdPeriodicMps05High, _
  | .cmdPeriodicMps1Low, _ | .cmdPeriodicMps1Medium, _ | .cmdPeriodicMps1High, _
  | .cmdPeriodicMps2Low, _ | .cmdPeriodicMps2Medium, _ | .cmdPeriodicMps2High, _
  | .cmdPeriodicMps4Low, _ | .cmdPeriodicMps4Medium, _ | .cmdPeriodicMps4High, _
  | .cmdPeriodicMps10Low, _ | .cmdPeriodicMps10Medium, _ | .cmdPeriodicMps10High, _ => false
  | .cmdSingleShotLow, _ | .cmdSingleShotMedium, _ | .cmdSingleShotHigh, _ => false
  | .cmdSingleShotStretchLow, _ | .cmdSingleShotStretchMedium, _ | .cmdSingleShotStretchHigh, _ => false

/-- The instructions that are requests of the ten operations and the reserved numbers (R53, R69). -/
def isRequest (i : Instr) : Bool := i.format == .req16

end Sys2Proof.Machine
end

