-- ==== Sys2Proof/Certificates/Slice0/Obligations.lean ====
section
/-! DEFINITION. The statements for the provers.  Codes, bytes and operand values are written out from the
spec's tables, not taken from the model's own tables, so that a wrong entry makes a statement false. -/

open Sys2Proof Sys2Proof.Machine

/-! ### Encoding -/

/-- Decoding the encoding of a well-formed instruction, in the instruction's own format, gives it back and
leaves nothing (30_encoding.md sections 1 to 3; the encoding of requests is decision D2). -/
def Obligations.DecodeInvertsEncode : Prop :=
  ∀ i : Instr, i.wf = true → decode i.format (encode i) = .ok (i, [])

/-- A request word decodes by its operation number and the fields that operation uses; every other bit is
ignored (30_encoding.md sections 1 and 2, D2, U16). -/
def Obligations.IgnoredRequestFieldsHaveNoEffect : Prop :=
  ∀ w w' : Word, w.extractLsb' 12 4 = w'.extractLsb' 12 4 →
    (w.extractLsb' 12 4 ∈ [0x0#4, 0x3#4, 0x9#4] → w.extractLsb' 4 8 = w'.extractLsb' 4 8) →
    (w.extractLsb' 12 4 ∈ [0x2#4, 0x3#4, 0x8#4] → w.extractLsb' 0 4 = w'.extractLsb' 0 4) →
    decodeRequest w = decodeRequest w'

/-- The command decoder matches all 16 bits: a word is a command exactly when it is that command's whole
code, and then only that command's (30_encoding.md section 3). -/
def Obligations.CommandDecoderMatchesAllSixteenBits : Prop :=
  ∀ (w : Word) (i : Instr), decodeCommand w = some i ↔ i.format = .cmd16 ∧ i.word = w

/-- Words written out from the encoding tables decode to what they stand for. -/
def Obligations.WordsOfTheTablesDecode : Prop :=
  decodeRequest 0x0FFF = .init 0xFF ∧ decodeRequest 0x1234 = .deInit ∧
  decodeRequest 0x2FF2 = .setSingleShot 2 ∧ decodeRequest 0x3032 = .setPeriodic 3 2 ∧
  decodeRequest 0x5FFF = .readSample ∧ decodeRequest 0x9450 = .setAddressI2C 0x45 ∧
  decodeRequest 0xA000 = .reservedOpA ∧ decodeRequest 0xF123 = .reservedOpF ∧
  decodeRequest 0x3041 = .setPeriodic 4 1 ∧ decodeCommand 0x3041 = some .cmdClearStatus ∧
  decodeCommand 0x30A2 = some .cmdSoftReset ∧ decodeCommand 0x2334 = some .cmdPeriodicMps4High ∧
  decodeCommand 0x2416 = some .cmdSingleShotLow ∧ decodeCommand 0x2417 = none

/-! ### The step -/

/-- With `SEQ` idle, a step takes the presented request or command, decodes it with the decoder of its format
and is exec of it; a code that is no command is refused, and with nothing presented the state stays.  The event
list and the command event are the model's own (log 7, log 9). -/
def Obligations.StepRunsThePresentedInstruction : Prop :=
  ∀ (s : State) (w : Word) (rest : List HostEvent), s.seq = .idle →
    (s.host = .request w :: rest → step s = exec (decodeRequest w) { s with host := rest }) ∧
    (∀ i, s.host = .command w :: rest → decodeCommand w = some i →
      step s = exec i { s with host := rest }) ∧
    (s.host = .command w :: rest → decodeCommand w = none → step s = .refused .notACommand) ∧
    (s.host = [] → step s = .next s)

/-- While an operation runs, a request presented is refused (decision D29), a bare command is refused the same way
whatever its code (the command event is the model's own, log 9), and with nothing presented the block stays as it
is (that a busy block is seen between steps is the model's form of the stuck state, log 6). -/
def Obligations.ABusyBlockRefusesAndStays : Prop :=
  ∀ s : State, s.seq ≠ .idle →
    (∀ w rest, s.host = .request w :: rest → step s = .refused .requestWhileBusy) ∧
    (∀ w rest, s.host = .command w :: rest → step s = .refused .requestWhileBusy) ∧
    (s.host = [] → step s = .next s)

/-- After power-on `H.CRC` is by the strap, `SEQ` is idle and no call was made.  The other registers hold no value
where the configuration follows decision D8, and the model's own reset values (log 2) where it does not; the reset
state is the power-on state of a configuration of the second kind. -/
def Obligations.PowerOnContents : Prop :=
  (∃ c : Config, c.powerOnRegisters = .resetValues ∧ State.reset = State.powerOn c) ∧
  ∀ c : Config, (State.powerOn c).cfg = c ∧ (State.powerOn c).seq = .idle ∧ (State.powerOn c).trace = [] ∧
    (State.powerOn c).h.crc = (if c.hasCrc then .ext else .unbound) ∧
    (c.powerOnRegisters = .noValue →
      (State.powerOn c).h = ⟨none, none, none, none, (State.powerOn c).h.crc⟩ ∧
      (State.powerOn c).sample = ⟨none, none, none, none, none⟩ ∧
      (State.powerOn c).stValue = none ∧ (State.powerOn c).res = none) ∧
    (c.powerOnRegisters = .resetValues →
      (State.powerOn c).h =
        ⟨some 0x44, some .singleShot, some .low, some .mps05, (State.powerOn c).h.crc⟩ ∧
      (State.powerOn c).sample = ⟨some 0, some 0, some 0, some 0, some 0⟩ ∧
      (State.powerOn c).stValue = some 0 ∧ (State.powerOn c).res = some .ok)

/-- The reset input returns the block to its power-on state from any state, a hanging operation included,
and makes no adapter call (decision D8; the input is modelled, log 8). -/
def Obligations.ResetInputRestoresPowerOn : Prop :=
  ∀ (s : State) (rest : List HostEvent), s.host = .rst :: rest →
    step s = .next { State.powerOn s.cfg with
      trace := s.trace, adapter := s.adapter, calls := s.calls, host := rest }

/-! ### The primitives -/

/-- `WriteCommand` puts the more significant byte of the code first: `cmd[15:8]`, `cmd[7:0]` in `TXBUF`, and makes
exactly one Send of them to `H.ADDR`; it is true exactly when the status is 0. -/
def Obligations.WriteCommandSendsHighByteFirst : Prop :=
  ∀ (cmd : Word) (s : State) (k : Bool → State → Out) (a : BusAddr) (st : Status) (buf : RxBuf),
    s.h.addr = some a → s.cfg.hasSend = true → s.answerAt 0 = .returns st buf →
    writeCommand cmd s k = k (decide (st = 0))
      { s with
        txbuf := ⟨cmd.extractLsb' 8 8, cmd.extractLsb' 0 8⟩
        trace := s.trace ++ [⟨.send a (cmd.extractLsb' 8 8) (cmd.extractLsb' 0 8), .status st⟩]
        adapter := s.adapter.tail
        calls := s.calls + 1 } ∧
    ((0x30A2#16).extractLsb' 8 8 = 0x30#8 ∧ (0x30A2#16).extractLsb' 0 8 = 0xA2#8)

/-- The three classes of a Receive status, disjoint because `NACK_CODE` is negative. -/
def Obligations.ReceiveStatusIsClassified : Prop :=
  ∀ (c : Config) (st : Status), c.nackCode.toInt < 0 →
    (classifyRecv c st = .recvOk ↔ st = 0) ∧
    (classifyRecv c st = .recvNack ↔ st = c.nackCode) ∧
    (classifyRecv c st = .recvFail ↔ st ≠ 0 ∧ st ≠ c.nackCode)

/-- `CrcCheck` reads `H.CRC`: `Ext` calls the adapter and is true exactly on status 0, `Default` makes no
call and is true, `None` is a fault. -/
def Obligations.CrcCheckFollowsTheBinding : Prop :=
  ∀ (v : Word) (c : Byte) (s : State) (k : Bool → State → Out),
    (∀ st buf, s.h.crc = .ext → s.cfg.hasCrc = true → s.answerAt 0 = .returns st buf →
      crcCheck v c s k = k (decide (st = 0))
        { s with
          trace := s.trace ++ [⟨.crc v c, .status st⟩]
          adapter := s.adapter.tail
          calls := s.calls + 1 }) ∧
    (s.h.crc = .default → crcCheck v c s k = k true s) ∧
    (s.h.crc = .unbound → crcCheck v c s k = .fault .crcUnbound)

/-- `Word16` is big-endian and unsigned, in the positions the two frames give. -/
def Obligations.ResponseWordsAreBigEndian : Prop :=
  (∀ hi lo : Byte, word16 hi lo = (hi.zeroExtend 16 <<< 8) ||| lo.zeroExtend 16 ∧
    (word16 hi lo).toNat = 256 * hi.toNat + lo.toNat) ∧
  ∀ b : RxBuf, b.word0 = word16 b.b0 b.b1 ∧ b.word3 = word16 b.b3 b.b4

/-! ### Mode configuration -/

/-- The repeatability and speed operands and their ranges, as the operations that take them answer: an
out-of-range operand gives `InvalidParam` with no other effect. -/
def Obligations.OperandRanges : Prop :=
  (repOperand 0 = some .low ∧ repOperand 1 = some .medium ∧ repOperand 2 = some .high) ∧
  (speedOperand 0 = some .mps05 ∧ speedOperand 1 = some .mps1 ∧ speedOperand 2 = some .mps2 ∧
    speedOperand 3 = some .mps4 ∧ speedOperand 4 = some .mps10) ∧
  (∀ n, (repOperand n).isSome = true ↔ n ≤ 2) ∧ (∀ n, (speedOperand n).isSome = true ↔ n ≤ 4) ∧
  ∀ (s : State) (speed rep : Nat), s.cfg.clockStretch = false →
    (2 < rep → exec (.setSingleShot rep) s = .next (s.finish .invalidParam)) ∧
    (2 < rep ∨ 4 < speed → exec (.setPeriodic speed rep) s = .next (s.finish .invalidParam))

/-- `SetSingleShot`: validates, sends `0x3093` whatever the mode and the operand, and only on send success
stores the mode and the repeatability; the request is operation number 2 with `rep` in bits 3:0. -/
def Obligations.SetSingleShotValidatesSendsStores : Prop :=
  (∀ w : Word, w.extractLsb' 12 4 = 0x2#4 →
    decodeRequest w = .setSingleShot (w.extractLsb' 0 4).toNat) ∧
  ∀ (s : State) (rep : Nat), s.cfg.clockStretch = false →
    (2 < rep → exec (.setSingleShot rep) s = .next (s.finish .invalidParam)) ∧
    ∀ (r : Repeatability) (a : BusAddr) (st : Status) (buf : RxBuf),
      (rep, r) ∈ [(0, Repeatability.low), (1, .medium), (2, .high)] →
      s.h.addr = some a → s.cfg.hasSend = true → s.answerAt 0 = .returns st buf →
      (st ≠ 0 → exec (.setSingleShot rep) s = .next ((s.afterSend a 0x30 0x93 st).finish .fail)) ∧
      (st = 0 → exec (.setSingleShot rep) s = .next
        ((((s.afterSend a 0x30 0x93 st).setMode .singleShot).setRep r).finish .ok))

/-- The periodic command table, row by row: operand values, the registers' contents, the two bytes.  Only the
row of 4 MPS, High is the source's; the other codes are the spec's general knowledge (G1, log 19). -/
def Sys2Proof.periodicTable : List ((Nat × Nat) × (Speed × Repeatability) × Byte × Byte) :=
  [((0, 0), (.mps05, .low), 0x20, 0x2F), ((0, 1), (.mps05, .medium), 0x20, 0x24),
   ((0, 2), (.mps05, .high), 0x20, 0x32), ((1, 0), (.mps1, .low), 0x21, 0x2D),
   ((1, 1), (.mps1, .medium), 0x21, 0x26), ((1, 2), (.mps1, .high), 0x21, 0x30),
   ((2, 0), (.mps2, .low), 0x22, 0x2B), ((2, 1), (.mps2, .medium), 0x22, 0x20),
   ((2, 2), (.mps2, .high), 0x22, 0x36), ((3, 0), (.mps4, .low), 0x23, 0x29),
   ((3, 1), (.mps4, .medium), 0x23, 0x22), ((3, 2), (.mps4, .high), 0x23, 0x34),
   ((4, 0), (.mps10, .low), 0x27, 0x2A), ((4, 1), (.mps10, .medium), 0x27, 0x21),
   ((4, 2), (.mps10, .high), 0x27, 0x37)]

/-- `SetPeriodic`: for each row of the table, sends the row's code and only on send success stores the mode
and both operands.  The codes but one are general knowledge of the spec (G1, log 19). -/
def Obligations.SetPeriodicSendsTheTableCode : Prop :=
  ∀ row ∈ periodicTable, ∀ (s : State) (a : BusAddr) (st : Status) (buf : RxBuf),
    s.cfg.clockStretch = false → s.h.addr = some a → s.cfg.hasSend = true →
    s.answerAt 0 = .returns st buf →
    (st ≠ 0 → exec (.setPeriodic row.1.1 row.1.2) s = .next
      ((s.afterSend a row.2.2.1 row.2.2.2 st).finish .fail)) ∧
    (st = 0 → exec (.setPeriodic row.1.1 row.1.2) s = .next
      (((((s.afterSend a row.2.2.1 row.2.2.2 st).setMode .periodic).setSpeed row.2.1.1).setRep
        row.2.1.2).finish .ok))

/-- `SetART`: sends `0x2B32`, has no `InvalidParam` exit, and only on send success stores the mode; the
request is operation number 4 whatever its other bits. -/
def Obligations.SetARTSendsThenStoresMode : Prop :=
  (∀ w : Word, w.extractLsb' 12 4 = 0x4#4 → decodeRequest w = .setART) ∧
  ∀ (s : State) (a : BusAddr) (st : Status) (buf : RxBuf),
    s.cfg.clockStretch = false → s.h.addr = some a → s.cfg.hasSend = true →
    s.answerAt 0 = .returns st buf →
    (st ≠ 0 → exec .setART s = .next ((s.afterSend a 0x2B 0x32 st).finish .fail)) ∧
    (st = 0 → exec .setART s = .next (((s.afterSend a 0x2B 0x32 st).setMode .art).finish .ok))

/-! ### Status and control -/

/-- `ClearStatus` and `SetHeater` send their code once and answer `Ok` or `Fail` by the status; nothing else
changes (the results and "nonzero is on" are decision D18). -/
def Obligations.ClearStatusAndHeaterSendOnce : Prop :=
  ∀ (s : State) (a : BusAddr) (st : Status) (buf : RxBuf) (enabled : Nat),
    s.cfg.clockStretch = false → s.h.addr = some a → s.cfg.hasSend = true →
    s.answerAt 0 = .returns st buf →
    exec .clearStatus s = .next ((s.afterSend a 0x30 0x41 st).finish (if st = 0 then .ok else .fail)) ∧
    (enabled ≠ 0 → exec (.setHeater enabled) s = .next
      ((s.afterSend a 0x30 0x6D st).finish (if st = 0 then .ok else .fail))) ∧
    (enabled = 0 → exec (.setHeater enabled) s = .next
      ((s.afterSend a 0x30 0x66 st).finish (if st = 0 then .ok else .fail)))

/-- `SetAddressI2C`: the six recognised selectors give `0x44` or `0x45`; every other one gives `0x44` under
the default policy and leaves the register under the other (decision D6); no adapter call, always `Ok`. -/
def Obligations.SetAddressResolvesTheSelector : Prop :=
  ∀ (s : State) (selector : Nat), s.cfg.clockStretch = false →
    (selector ∈ [0x00, 0x44, 0x88] →
      exec (.setAddressI2C selector) s = .next ((s.setAddr 0x44#7).finish .ok)) ∧
    (selector ∈ [0x01, 0x45, 0x8A] →
      exec (.setAddressI2C selector) s = .next ((s.setAddr 0x45#7).finish .ok)) ∧
    (selector ∉ [0x00, 0x44, 0x88, 0x01, 0x45, 0x8A] →
      (s.cfg.addrDefaultPolicy = .defaultToA →
        exec (.setAddressI2C selector) s = .next ((s.setAddr 0x44#7).finish .ok)) ∧
      (s.cfg.addrDefaultPolicy = .keepPrevious →
        exec (.setAddressI2C selector) s = .next (s.finish .ok)))

/-- `ReadStatus` on each of its exits: failed Send, failed Receive of any status, the default check, the
adapter's check.  `ST.VALUE` is written before the check (decisions D10, D13). -/
def Obligations.ReadStatusDeliversOnEachExit : Prop :=
  ∀ (s : State) (a : BusAddr) (st0 : Status) (buf0 : RxBuf),
    s.cfg.clockStretch = false → s.h.addr = some a → s.cfg.hasSend = true →
    s.answerAt 0 = .returns st0 buf0 →
    (st0 ≠ 0 → exec .readStatus s = .next ((s.afterSend a 0xF3 0x2D st0).finish .fail)) ∧
    ∀ (st1 : Status) (buf : RxBuf), st0 = 0 → s.cfg.hasRecv = true → s.answerAt 1 = .returns st1 buf →
      (st1 ≠ 0 → exec .readStatus s = .next
        (((s.afterSend a 0xF3 0x2D 0).afterRecv a 3 st1 buf).finish .fail)) ∧
      (st1 = 0 → s.h.crc = .default → exec .readStatus s = .next
        ((((s.afterSend a 0xF3 0x2D 0).afterRecv a 3 0 buf).setStValue
          (word16 buf.b0 buf.b1)).finish .ok)) ∧
      ∀ (st2 : Status) (buf2 : RxBuf), st1 = 0 → s.h.crc = .ext → s.cfg.hasCrc = true →
        s.answerAt 2 = .returns st2 buf2 →
        exec .readStatus s = .next
          (((((s.afterSend a 0xF3 0x2D 0).afterRecv a 3 0 buf).setStValue
            (word16 buf.b0 buf.b1)).afterCall (.crc (word16 buf.b0 buf.b1) buf.b2) st2).finish
            (if st2 = 0 then .ok else .crcError))

/-! ### Initialisation and teardown -/

/-- `Init` without a required capability: `InvalidParam`, no adapter call, only `H.ADDR` written, with the
resolved selector (D6, D7; that KeepPrevious applies in Init too is log 15). -/
def Obligations.InitWithoutARequiredCapability : Prop :=
  ∀ (s : State) (selector : Nat), s.cfg.clockStretch = false →
    (s.cfg.hasSend = false ∨ s.cfg.hasRecv = false ∨ s.cfg.hasDelay = false) →
    exec (.init selector) s = .next
      ({ s with h := { s.h with
          addr := resolveAddr s.cfg.addrDefaultPolicy s.h.addr selector } }.finish .invalidParam)

/-- `Init` where the adapter has no platform init: address, default CRC check, baseline, one soft reset, on
success one Delay of 2 ms (a failed soft reset gives `Fail` at once: decision D15; the Delay's status is ignored:
D14).  The address is the resolved selector (D6, D7; that KeepPrevious applies in Init too is log 15). -/
def Obligations.InitWithoutPlatformInit : Prop :=
  ∀ (s : State) (selector : Nat) (a : BusAddr) (st0 st1 : Status) (buf0 buf1 : RxBuf),
    s.cfg.clockStretch = false → s.cfg.hasInit = false →
    s.cfg.hasSend = true → s.cfg.hasRecv = true → s.cfg.hasDelay = true →
    resolveAddr s.cfg.addrDefaultPolicy s.h.addr selector = some a →
    s.answerAt 0 = .returns st0 buf0 → s.answerAt 1 = .returns st1 buf1 →
    let u := { s with h := { s.h with
      addr := some a, mode := some .singleShot, rep := some .low,
      crc := if s.h.crc = CrcBinding.unbound then .default else s.h.crc } }
    (st0 ≠ 0 → exec (.init selector) s = .next ((u.afterSend a 0x30 0xA2 st0).finish .fail)) ∧
    (st0 = 0 → exec (.init selector) s = .next
      (((u.afterSend a 0x30 0xA2 0).afterCall (.delay 2) st1).finish .ok))

/-- `Init` with platform init: the call comes after the address and the default CRC check and before the
baseline; its failure is `Fail` with the mode and repeatability as before (the rest as without platform init: D14,
D15).  The address is the resolved selector (D6, D7; that KeepPrevious applies in Init too is log 15). -/
def Obligations.InitWithPlatformInit : Prop :=
  ∀ (s : State) (selector : Nat) (a : BusAddr) (st0 st1 st2 : Status) (buf0 buf1 buf2 : RxBuf),
    s.cfg.clockStretch = false → s.cfg.hasInit = true →
    s.cfg.hasSend = true → s.cfg.hasRecv = true → s.cfg.hasDelay = true →
    resolveAddr s.cfg.addrDefaultPolicy s.h.addr selector = some a →
    s.answerAt 0 = .returns st0 buf0 → s.answerAt 1 = .returns st1 buf1 →
    s.answerAt 2 = .returns st2 buf2 →
    let u := { s with h := { s.h with
      addr := some a, crc := if s.h.crc = CrcBinding.unbound then .default else s.h.crc } }
    let v := ((u.afterCall .platformInit 0).setMode .singleShot).setRep .low
    (st0 ≠ 0 → exec (.init selector) s = .next ((u.afterCall .platformInit st0).finish .fail)) ∧
    (st0 = 0 → st1 ≠ 0 → exec (.init selector) s = .next ((v.afterSend a 0x30 0xA2 st1).finish .fail)) ∧
    (st0 = 0 → st1 = 0 → exec (.init selector) s = .next
      (((v.afterSend a 0x30 0xA2 0).afterCall (.delay 2) st2).finish .ok))

/-- `DeInit`: a no-op success without platform deinit; with it, one call and `Ok` or `Fail` by its status; no
handle register changes (decision D16). -/
def Obligations.DeInitCallsPlatformDeInit : Prop :=
  ∀ s : State, s.cfg.clockStretch = false →
    (s.cfg.hasDeInit = false → exec .deInit s = .next (s.finish .ok)) ∧
    (∀ st buf, s.cfg.hasDeInit = true → s.answerAt 0 = .returns st buf →
      exec .deInit s = .next
        ((s.afterCall .platformDeInit st).finish (if st = 0 then .ok else .fail)))

/-! ### ReadSample, Periodic and ART -/

/-- One fetch, one Receive, no retry: a failed Send is `Fail` with no Receive (decision D10), the NACK code on
the Receive is `NoData`, every other nonzero status is `Fail`; the Sample is kept (decision D12). -/
def Obligations.FetchFailuresAreToldApart : Prop :=
  ∀ (s : State) (a : BusAddr) (st0 : Status) (buf0 : RxBuf),
    s.cfg.clockStretch = false → (s.h.mode = some .periodic ∨ s.h.mode = some .art) →
    s.h.addr = some a → s.cfg.hasSend = true → s.answerAt 0 = .returns st0 buf0 →
    (st0 ≠ 0 → exec .readSample s = .next ((s.afterSend a 0xE0 0x00 st0).finish .fail)) ∧
    ∀ (st1 : Status) (buf : RxBuf), st0 = 0 → s.cfg.hasRecv = true →
      s.answerAt 1 = .returns st1 buf → st1 ≠ 0 →
      exec .readSample s = .next
        (((s.afterSend a 0xE0 0x00 0).afterRecv a 6 st1 buf).finish
          (if st1 = s.cfg.nackCode then .noData else .fail))

/-- A fetched frame with the default CRC check: raw counts, the three derived fields, `Ok`; there is no
zero-CRC guard on this path. -/
def Obligations.FetchDeliversASample : Prop :=
  ∀ (s : State) (a : BusAddr) (buf0 buf : RxBuf),
    s.cfg.clockStretch = false → (s.h.mode = some .periodic ∨ s.h.mode = some .art) →
    s.h.addr = some a → s.cfg.hasSend = true → s.cfg.hasRecv = true → s.h.crc = .default →
    s.answerAt 0 = .returns 0 buf0 → s.answerAt 1 = .returns 0 buf →
    exec .readSample s = .next
      ((((s.afterSend a 0xE0 0x00 0).afterRecv a 6 0 buf).setRaw
          (word16 buf.b0 buf.b1) (word16 buf.b3 buf.b4)).setDerived
        (Config.roundFlt (celsiusQ (word16 buf.b0 buf.b1)))
        (Config.roundFlt (fahrenheitQ (word16 buf.b0 buf.b1)))
        (Config.roundFlt (humidityQ (word16 buf.b3 buf.b4))) |>.finish .ok)

/-- A fetched frame with the adapter's CRC check: the temperature word first, then the humidity word; the
first failure ends the operation with `CrcError`, both raw counts written and the derived fields kept. -/
def Obligations.FetchChecksTemperatureFirst : Prop :=
  ∀ (s : State) (a : BusAddr) (buf0 buf : RxBuf) (st2 st3 : Status) (buf2 buf3 : RxBuf),
    s.cfg.clockStretch = false → (s.h.mode = some .periodic ∨ s.h.mode = some .art) →
    s.h.addr = some a → s.cfg.hasSend = true → s.cfg.hasRecv = true →
    s.h.crc = .ext → s.cfg.hasCrc = true →
    s.answerAt 0 = .returns 0 buf0 → s.answerAt 1 = .returns 0 buf →
    s.answerAt 2 = .returns st2 buf2 → s.answerAt 3 = .returns st3 buf3 →
    let t := word16 buf.b0 buf.b1
    let h := word16 buf.b3 buf.b4
    let u := (((s.afterSend a 0xE0 0x00 0).afterRecv a 6 0 buf).setRaw t h).afterCall
      (.crc t buf.b2) st2
    let v := u.afterCall (.crc h buf.b5) st3
    (st2 ≠ 0 → exec .readSample s = .next (u.finish .crcError)) ∧
    (st2 = 0 → st3 ≠ 0 → exec .readSample s = .next (v.finish .crcError)) ∧
    (st2 = 0 → st3 = 0 → exec .readSample s = .next
      ((v.setDerived (Config.roundFlt (celsiusQ t)) (Config.roundFlt (fahrenheitQ t))
        (Config.roundFlt (humidityQ h))).finish .ok))

/-! ### ReadSample, SingleShot -/

/-- The single-shot codes, byte by byte, for each repeatability (general knowledge of the spec, G2,
log 19). -/
def Sys2Proof.singleShotTable : List (Repeatability × Byte × Byte) :=
  [(.low, 0x24, 0x16), (.medium, 0x24, 0x0B), (.high, 0x24, 0x00)]

/-- The premises of a single-shot read whose Send succeeds, shared by the statements below. -/
def Sys2Proof.SingleShotSent (s : State) (a : BusAddr) (row : Repeatability × Byte × Byte) : Prop :=
  s.cfg.clockStretch = false ∧ s.h.mode = some .singleShot ∧ s.h.rep = some row.1 ∧
  s.h.addr = some a ∧ s.cfg.hasSend = true ∧ s.cfg.hasRecv = true ∧ s.cfg.hasDelay = true ∧
  AdapterReturns s ∧ s.statusAt 0 = some 0

/-- A failed Send ends a single-shot read with `Fail` and no Receive (decision D10). -/
def Obligations.SingleShotFailedSendEndsTheRead : Prop :=
  ∀ row ∈ singleShotTable, ∀ (s : State) (a : BusAddr) (st : Status) (buf : RxBuf),
    s.cfg.clockStretch = false → s.h.mode = some .singleShot → s.h.rep = some row.1 →
    s.h.addr = some a → s.cfg.hasSend = true → s.answerAt 0 = .returns st buf → st ≠ 0 →
    exec .readSample s = .next ((s.afterSend a row.2.1 row.2.2 st).finish .fail)

/-- If all twenty Receives fail, with whatever nonzero statuses, the read makes one Send, twenty Receives and
twenty Delays of 1 ms and answers `Fail`; the Sample is kept (the Delay count is decision D9). -/
def Obligations.SingleShotTwentyFailuresGiveFail : Prop :=
  ∀ row ∈ singleShotTable, ∀ (s : State) (a : BusAddr), SingleShotSent s a row →
    (∀ j < 20, s.statusAt (1 + 2 * j) ≠ some 0) →
    ∃ t, exec .readSample s = .next t ∧ KeptByRead s t ∧ t.res = some .fail ∧ t.sample = s.sample ∧
      t.trace = s.trace ++ s.eventAt 0 (.send a row.2.1 row.2.2) :: s.pollEvents a 20

/-- If the first successful Receive is attempt k + 1 and both its CRC bytes are zero, the read answers `Fail`
before anything is decoded or checked: the Sample is kept (decision D11). -/
def Obligations.SingleShotZeroCrcGuardGivesFail : Prop :=
  ∀ row ∈ singleShotTable, ∀ (s : State) (a : BusAddr) (k : Nat) (buf : RxBuf),
    SingleShotSent s a row → k < 20 → (∀ j < k, s.statusAt (1 + 2 * j) ≠ some 0) →
    s.answerAt (1 + 2 * k) = .returns 0 buf → buf.b2 = 0 → buf.b5 = 0 →
    ∃ t, exec .readSample s = .next t ∧ KeptByRead s t ∧ t.res = some .fail ∧ t.sample = s.sample ∧
      t.trace = s.trace ++ s.eventAt 0 (.send a row.2.1 row.2.2) :: s.pollEvents a k ++
        [⟨.recv a 6, .received 0 buf.bytes⟩]

/-- If the first successful Receive is attempt k + 1 and not both its CRC bytes are zero, then with the
default check the read delivers the sample with `Ok` after k + 1 Receives and k Delays (decision D9). -/
def Obligations.SingleShotDeliversASample : Prop :=
  ∀ row ∈ singleShotTable, ∀ (s : State) (a : BusAddr) (k : Nat) (buf : RxBuf),
    SingleShotSent s a row → s.h.crc = .default → k < 20 →
    (∀ j < k, s.statusAt (1 + 2 * j) ≠ some 0) →
    s.answerAt (1 + 2 * k) = .returns 0 buf → (buf.b2 ≠ 0 ∨ buf.b5 ≠ 0) →
    ∃ t, exec .readSample s = .next t ∧ KeptByRead s t ∧ t.res = some .ok ∧
      t.sample = ⟨some (word16 buf.b0 buf.b1), some (word16 buf.b3 buf.b4),
        some (Config.roundFlt (celsiusQ (word16 buf.b0 buf.b1))),
        some (Config.roundFlt (fahrenheitQ (word16 buf.b0 buf.b1))),
        some (Config.roundFlt (humidityQ (word16 buf.b3 buf.b4)))⟩ ∧
      t.trace = s.trace ++ s.eventAt 0 (.send a row.2.1 row.2.2) :: s.pollEvents a k ++
        [⟨.recv a 6, .received 0 buf.bytes⟩]

/-- The same with the adapter's check: temperature first, a failure is `CrcError` with the raw counts written
and the derived fields kept (decision D12). -/
def Obligations.SingleShotChecksTemperatureFirst : Prop :=
  ∀ row ∈ singleShotTable, ∀ (s : State) (a : BusAddr) (k : Nat) (buf : RxBuf),
    SingleShotSent s a row → s.h.crc = .ext → s.cfg.hasCrc = true → k < 20 →
    (∀ j < k, s.statusAt (1 + 2 * j) ≠ some 0) →
    s.answerAt (1 + 2 * k) = .returns 0 buf → (buf.b2 ≠ 0 ∨ buf.b5 ≠ 0) →
    let tw := word16 buf.b0 buf.b1
    let hw := word16 buf.b3 buf.b4
    let tOk := s.statusAt (2 + 2 * k) = some 0
    let hOk := s.statusAt (3 + 2 * k) = some 0
    ∃ t, exec .readSample s = .next t ∧ KeptByRead s t ∧
      t.sample.tRaw = some tw ∧ t.sample.hRaw = some hw ∧
      (tOk ∧ hOk → t.res = some .ok ∧ t.sample.celsius = some (Config.roundFlt (celsiusQ tw)) ∧
        t.sample.fahrenheit = some (Config.roundFlt (fahrenheitQ tw)) ∧
        t.sample.humidity = some (Config.roundFlt (humidityQ hw))) ∧
      (¬ (tOk ∧ hOk) → t.res = some .crcError ∧ t.sample.celsius = s.sample.celsius ∧
        t.sample.fahrenheit = s.sample.fahrenheit ∧ t.sample.humidity = s.sample.humidity) ∧
      t.trace = s.trace ++ s.eventAt 0 (.send a row.2.1 row.2.2) :: s.pollEvents a k ++
        [⟨.recv a 6, .received 0 buf.bytes⟩, s.eventAt (2 + 2 * k) (.crc tw buf.b2)] ++
        (if s.statusAt (2 + 2 * k) = some 0 then [s.eventAt (3 + 2 * k) (.crc hw buf.b5)] else [])

/-- The reserved mode encoding: `InvalidParam`, no adapter call (decision D21). -/
def Obligations.ReservedModeGivesInvalidParam : Prop :=
  ∀ s : State, s.cfg.clockStretch = false → s.h.mode = some .reserved →
    exec .readSample s = .next (s.finish .invalidParam)

/-! ### Reserved numbers, wire commands, the refused configuration -/

/-- The reserved operation numbers: `InvalidParam`, no adapter call, no register but `RES` (decision D22). -/
def Obligations.ReservedNumbersGiveInvalidParam : Prop :=
  (∀ w : Word, 0xA ≤ (w.extractLsb' 12 4).toNat → decodeRequest w ∈
    [.reservedOpA, .reservedOpB, .reservedOpC, .reservedOpD, .reservedOpE, .reservedOpF]) ∧
  ∀ i ∈ [Instr.reservedOpA, .reservedOpB, .reservedOpC, .reservedOpD, .reservedOpE, .reservedOpF],
    ∀ s : State, s.cfg.clockStretch = false → exec i s = .next (s.finish .invalidParam)

/-- The 26 wire commands of the specified configuration and their two bytes on the bus. -/
def Sys2Proof.wireTable : List (Instr × Byte × Byte) :=
  [(.cmdSoftReset, 0x30, 0xA2), (.cmdStopPeriodic, 0x30, 0x93), (.cmdFetchData, 0xE0, 0x00),
   (.cmdReadStatus, 0xF3, 0x2D), (.cmdClearStatus, 0x30, 0x41), (.cmdHeaterOn, 0x30, 0x6D),
   (.cmdHeaterOff, 0x30, 0x66), (.cmdART, 0x2B, 0x32),
   (.cmdPeriodicMps05Low, 0x20, 0x2F), (.cmdPeriodicMps05Medium, 0x20, 0x24),
   (.cmdPeriodicMps05High, 0x20, 0x32), (.cmdPeriodicMps1Low, 0x21, 0x2D),
   (.cmdPeriodicMps1Medium, 0x21, 0x26), (.cmdPeriodicMps1High, 0x21, 0x30),
   (.cmdPeriodicMps2Low, 0x22, 0x2B), (.cmdPeriodicMps2Medium, 0x22, 0x20),
   (.cmdPeriodicMps2High, 0x22, 0x36), (.cmdPeriodicMps4Low, 0x23, 0x29),
   (.cmdPeriodicMps4Medium, 0x23, 0x22), (.cmdPeriodicMps4High, 0x23, 0x34),
   (.cmdPeriodicMps10Low, 0x27, 0x2A), (.cmdPeriodicMps10Medium, 0x27, 0x21),
   (.cmdPeriodicMps10High, 0x27, 0x37),
   (.cmdSingleShotLow, 0x24, 0x16), (.cmdSingleShotMedium, 0x24, 0x0B), (.cmdSingleShotHigh, 0x24, 0x00)]

/-- A wire command by itself is one Send of its two bytes, recorded with its status; no other register
changes, `RES` included (running a command by itself is the model's choice, log 9). -/
def Obligations.WireCommandsSendTheirCode : Prop :=
  ∀ row ∈ wireTable, ∀ (s : State) (a : BusAddr) (st : Status) (buf : RxBuf),
    s.cfg.clockStretch = false → s.h.addr = some a → s.cfg.hasSend = true →
    s.answerAt 0 = .returns st buf →
    exec row.1 s = .next { s.afterSend a row.2.1 row.2.2 st with seq := .idle }

/-- The clock-stretching commands have these codes and are refused in every state, and the configuration
`CLOCK_STRETCH = true` is refused for every instruction (decision D19). -/
def Obligations.ClockStretchIsRefused : Prop :=
  (decodeCommand 0x2C10 = some .cmdSingleShotStretchLow ∧
    decodeCommand 0x2C0D = some .cmdSingleShotStretchMedium ∧
    decodeCommand 0x2C06 = some .cmdSingleShotStretchHigh) ∧
  (∀ i ∈ [Instr.cmdSingleShotStretchLow, .cmdSingleShotStretchMedium, .cmdSingleShotStretchHigh],
    ∀ s : State, exec i s = .refused .clockStretchConfiguration) ∧
  ∀ (i : Instr) (s : State), s.cfg.clockStretch = true → exec i s = .refused .clockStretchConfiguration

/-! ### Faults -/

/-- The instructions that send a command before anything else can stop them: the mode-setting operations with
operands in range, the control operations, the wire commands. -/
def Sys2Proof.sendsFirst (speed rep enabled : Nat) : List Instr :=
  [.setSingleShot rep, .setPeriodic speed rep, .setART, .readStatus, .clearStatus, .setHeater enabled] ++
    wireTable.map (·.1)

/-- The handles with which ReadSample sends a command: Periodic, ART, or SingleShot with a legal repeatability. -/
def Sys2Proof.ReadSampleSends (s : State) : Prop :=
  s.h.mode = some .periodic ∨ s.h.mode = some .art ∨
    (s.h.mode = some .singleShot ∧ ∃ row ∈ singleShotTable, s.h.rep = some row.1)

/-- The lines that read a register holding no value are faults: the address in everything that sends and in an Init
whose selector leaves it without a value, the mode and the repeatability in ReadSample, the reserved repeatability,
and the unbound CRC slot at the first check (decision D8, U7, U9, U14).  Such an Init needs the policy KeepPrevious
(D6, D7, log 15), and that the fault names the address also where no Send is bound is the model's choice (log 22).
In a block whose registers have reset values (log 2), no instruction meets that fault. -/
def Obligations.RegistersWithoutValueFault : Prop :=
  (∀ (s : State) (i : Instr) (r : RegName), Inv s → s.cfg.powerOnRegisters = .resetValues →
    exec i s ≠ .fault (.registerHoldsNoValue r)) ∧
  ∀ s : State, s.cfg.clockStretch = false →
    (s.h.addr = none → ∀ speed rep enabled, speed ≤ 4 → rep ≤ 2 →
      ∀ i ∈ sendsFirst speed rep enabled, exec i s = .fault (.registerHoldsNoValue .addr)) ∧
    (s.h.addr = none → ReadSampleSends s → exec .readSample s = .fault (.registerHoldsNoValue .addr)) ∧
    (∀ selector, resolveAddr s.cfg.addrDefaultPolicy s.h.addr selector = none →
      s.cfg.hasSend = true → s.cfg.hasRecv = true → s.cfg.hasDelay = true →
      (s.cfg.hasInit = false → exec (.init selector) s = .fault (.registerHoldsNoValue .addr)) ∧
      (∀ st buf, s.cfg.hasInit = true → s.answerAt 0 = .returns st buf →
        (st = 0 → exec (.init selector) s = .fault (.registerHoldsNoValue .addr)) ∧
        (st ≠ 0 → ∃ t, exec (.init selector) s = .next t ∧ t.res = some .fail ∧ t.h.addr = none ∧
          t.trace = s.trace ++ [⟨.platformInit, .status st⟩]))) ∧
    (s.h.mode = none → exec .readSample s = .fault (.registerHoldsNoValue .mode)) ∧
    (s.h.mode = some .singleShot → s.h.rep = none →
      exec .readSample s = .fault (.registerHoldsNoValue .rep)) ∧
    (s.h.mode = some .singleShot → s.h.rep = some .reserved →
      exec .readSample s = .fault .reservedEncoding) ∧
    (∀ a buf0 buf, s.h.crc = .unbound → s.h.addr = some a → s.cfg.hasSend = true →
      s.cfg.hasRecv = true → s.answerAt 0 = .returns 0 buf0 → s.answerAt 1 = .returns 0 buf →
      exec .readStatus s = .fault .crcUnbound ∧
      ((s.h.mode = some .periodic ∨ s.h.mode = some .art) → exec .readSample s = .fault .crcUnbound) ∧
      (ReadSampleSends s → (buf.b2 ≠ 0 ∨ buf.b5 ≠ 0) → exec .readSample s = .fault .crcUnbound))

/-- A call of a capability that is not bound is a fault, in every operation other than Init that reaches one: the
Send, the Receive, the Delay of the poll loop, and the adapter's CRC check (decision D24). -/
def Obligations.UnboundCapabilitiesFault : Prop :=
  ∀ (s : State) (a : BusAddr), s.cfg.clockStretch = false → s.h.addr = some a →
    (s.cfg.hasSend = false → ∀ speed rep enabled, speed ≤ 4 → rep ≤ 2 →
      ∀ i ∈ sendsFirst speed rep enabled, exec i s = .fault (.capabilityUnbound .send)) ∧
    (s.cfg.hasSend = false → ReadSampleSends s →
      exec .readSample s = .fault (.capabilityUnbound .send)) ∧
    (∀ buf, s.cfg.hasSend = true → s.cfg.hasRecv = false → s.answerAt 0 = .returns 0 buf →
      exec .readStatus s = .fault (.capabilityUnbound .recv) ∧
      (ReadSampleSends s → exec .readSample s = .fault (.capabilityUnbound .recv))) ∧
    (∀ buf0 st buf, s.cfg.hasSend = true → s.cfg.hasRecv = true → s.cfg.hasDelay = false →
      s.h.mode = some .singleShot → ReadSampleSends s → s.answerAt 0 = .returns 0 buf0 →
      s.answerAt 1 = .returns st buf → st ≠ 0 →
      exec .readSample s = .fault (.capabilityUnbound .delay)) ∧
    (∀ buf0 buf, s.cfg.hasSend = true → s.cfg.hasRecv = true → s.h.crc = .ext → s.cfg.hasCrc = false →
      s.answerAt 0 = .returns 0 buf0 → s.answerAt 1 = .returns 0 buf →
      exec .readStatus s = .fault (.capabilityUnbound .crcCheck))

/-! ### Invariants -/

/-- The invariant holds at reset. -/
def Obligations.ResetMeetsTheInvariant : Prop := Inv State.reset

/-- Every step keeps the invariant: legal handle contents, `H.CRC` in step with the strap, the poll counter in
its range, every call recorded, and no register without a value in a block that has reset values (log 2). -/
def Obligations.EveryStepKeepsTheInvariant : Prop :=
  ∀ s t : State, Inv s → step s = .next t → Inv t

/-- An Init that returns `Ok` leaves a state from which nothing can fault: `H.MODE = SingleShot`,
`H.REP = Low`, an address, a CRC binding, and `H.SPEED`, the Sample and `ST.VALUE` as before.  The address is the
resolved selector (D6, D7; that KeepPrevious applies in Init too is log 15). -/
def Obligations.InitOkMakesTheBlockReady : Prop :=
  ∀ (s t : State) (selector : Nat), Inv s → exec (.init selector) s = .next t → t.seq = .idle →
    t.res = some .ok →
    Ready t ∧ t.h.addr = resolveAddr s.cfg.addrDefaultPolicy s.h.addr selector ∧
    t.h.mode = some .singleShot ∧ t.h.rep = some .low ∧ t.h.speed = s.h.speed ∧
    t.sample = s.sample ∧ t.stValue = s.stValue

/-- From a ready state no instruction of the specified configuration faults or is refused. -/
def Obligations.ReadyStatesNeverFault : Prop :=
  ∀ (s : State) (i : Instr), Ready s →
    i ∉ [Instr.cmdSingleShotStretchLow, .cmdSingleShotStretchMedium, .cmdSingleShotStretchHigh] →
    ∃ t, exec i s = .next t

/-- Every step but a pulse of the reset input keeps a ready state ready: after one successful Init no
register is ever read without a value again. -/
def Obligations.EveryStepKeepsReadiness : Prop :=
  ∀ s t : State, Ready s → (∀ rest, s.host ≠ .rst :: rest) → step s = .next t → Ready t

/-- If every adapter call returns, every operation ends: `SEQ` idle and one of the results that operation can
return in `RES`. -/
def Obligations.ReturningAdapterEndsEveryOperation : Prop :=
  ∀ (s : State) (i : Instr), Ready s → AdapterReturns s → isRequest i = true →
    ∃ t r, exec i s = .next t ∧ t.seq = .idle ∧ t.res = some r ∧ mayReturn s i r = true

/-! ### What results say -/

/-- An operation that ended left one of the results its row of the result table allows. -/
def Obligations.ResultsFollowTheTable : Prop :=
  ∀ (s t : State) (i : Instr), isRequest i = true → exec i s = .next t → t.seq = .idle →
    ∃ r, t.res = some r ∧ mayReturn s i r = true

/-- `NoData` has a single cause: the NACK code on the one Receive of a Periodic or ART ReadSample. -/
def Obligations.NoDataHasOneCause : Prop :=
  ∀ (s t : State) (i : Instr), isRequest i = true → exec i s = .next t → t.seq = .idle →
    (t.res = some .noData ↔
      i = .readSample ∧ (s.h.mode = some .periodic ∨ s.h.mode = some .art) ∧
      s.statusAt 0 = some 0 ∧ s.statusAt 1 ≠ some 0 ∧ s.statusAt 1 = some s.cfg.nackCode)

/-- If a call an instruction makes never returns, and only then, the block is left busy: no call follows it, `RES`
is as before, and a further request is refused (the next state is the model's form of the stuck state, log 6). -/
def Obligations.ACallThatNeverReturnsHangsTheBlock : Prop :=
  ∀ (s t : State) (i : Instr), exec i s = .next t →
    ∃ l, t.trace = s.trace ++ l ∧ (t.seq ≠ .idle ↔ ∃ e ∈ l, e.reply = .never) ∧
      ((∃ e ∈ l, e.reply = .never) →
        t.res = s.res ∧ (∃ c l', l = l' ++ [⟨c, .never⟩] ∧ ∀ e ∈ l', e.reply ≠ .never) ∧
        ∀ w rest, step { t with host := .request w :: rest } = .refused .requestWhileBusy)

/-! ### Frames -/

/-- A mode-setting operation that does not end in `Ok` leaves every handle register as it was. -/
def Obligations.FailedModeSettingKeepsTheHandle : Prop :=
  ∀ (s t : State) (i : Instr),
    ((∃ r, i = .setSingleShot r) ∨ (∃ v r, i = .setPeriodic v r) ∨ i = .setART) →
    exec i s = .next t → (t.seq ≠ .idle ∨ t.res ≠ some .ok) → t.h = s.h

/-- Only Init, the three mode-setting operations and SetAddressI2C write the handle. -/
def Obligations.HandleIsWrittenByItsOwnersOnly : Prop :=
  ∀ (s t : State) (i : Instr), exec i s = .next t →
    (∀ sel, i ≠ .init sel ∧ i ≠ .setAddressI2C sel) → (∀ r, i ≠ .setSingleShot r) →
    (∀ v r, i ≠ .setPeriodic v r) → i ≠ .setART → t.h = s.h

/-- The handle fields an operation does not own are left unchanged (decision D17). -/
def Obligations.UnownedHandleFieldsAreKept : Prop :=
  ∀ s t : State,
    (∀ rep, exec (.setSingleShot rep) s = .next t →
      t.h.addr = s.h.addr ∧ t.h.speed = s.h.speed ∧ t.h.crc = s.h.crc) ∧
    (∀ speed rep, exec (.setPeriodic speed rep) s = .next t →
      t.h.addr = s.h.addr ∧ t.h.crc = s.h.crc) ∧
    (exec .setART s = .next t →
      t.h.addr = s.h.addr ∧ t.h.rep = s.h.rep ∧ t.h.speed = s.h.speed ∧ t.h.crc = s.h.crc) ∧
    (∀ sel, exec (.setAddressI2C sel) s = .next t →
      t.h.mode = s.h.mode ∧ t.h.rep = s.h.rep ∧ t.h.speed = s.h.speed ∧ t.h.crc = s.h.crc) ∧
    (∀ sel, exec (.init sel) s = .next t → t.h.speed = s.h.speed)

/-- Only ReadSample writes the Sample, only ReadStatus writes `ST.VALUE`, and no instruction changes the
configuration or what the host presents next. -/
def Obligations.OutputsAreWrittenByTheirOwnersOnly : Prop :=
  ∀ (s t : State) (i : Instr), exec i s = .next t →
    (i ≠ .readSample → t.sample = s.sample) ∧ (i ≠ .readStatus → t.stValue = s.stValue) ∧
    t.cfg = s.cfg ∧ t.host = s.host

/-- What a ReadSample that ended leaves in the Sample: after `Ok` five values, the derived ones within `CVT_TOL` of
the exact rationals of the raw counts beside them; after `CrcError` the derived fields as before; after any other
result all of it as before (decisions D12, D20; how the open rounding is held is log 13). -/
def Obligations.SampleAfterEachResult : Prop :=
  ∀ s t : State, exec .readSample s = .next t → t.seq = .idle →
    (t.res = some .ok → ∃ (tw hw : Word) (c f x : Flt),
      t.sample = ⟨some tw, some hw, some c, some f, some x⟩ ∧
      |c - celsiusQ tw| ≤ Config.cvtTol ∧ |f - fahrenheitQ tw| ≤ Config.cvtTol ∧
      |x - humidityQ hw| ≤ Config.cvtTol) ∧
    (t.res ≠ some .ok → t.res ≠ some .crcError → t.sample = s.sample) ∧
    (t.res = some .crcError → t.sample.celsius = s.sample.celsius ∧
      t.sample.fahrenheit = s.sample.fahrenheit ∧ t.sample.humidity = s.sample.humidity)

/-! ### The call trace -/

/-- An instruction only appends calls to the trace, takes one answer per call, and an operation that ended has
no call outstanding. -/
def Obligations.CallsAreRecordedInOrder : Prop :=
  ∀ (s t : State) (i : Instr), exec i s = .next t →
    ∃ l, t.trace = s.trace ++ l ∧ t.calls = s.calls + l.length ∧ t.adapter = s.adapter.drop l.length ∧
      (t.seq = .idle → ∀ e ∈ l, e.reply ≠ .never)

/-- Every call an instruction makes is one the block may make: a Send of a code of the tables or a Receive of
6 or 3 bytes, to `0x44` or `0x45`, or a Delay of 1 or 2 ms. -/
def Obligations.EveryCallIsLegal : Prop :=
  ∀ (s t : State) (i : Instr), Inv s → exec i s = .next t →
    ∃ l, t.trace = s.trace ++ l ∧ ∀ e ∈ l, e.call.legal

/-- An instruction makes at most 1 Send, 20 Receives, 20 Delays, 2 CRC calls and 1 platform call. -/
def Obligations.CallsAreBounded : Prop :=
  ∀ (s t : State) (i : Instr), exec i s = .next t →
    ∃ l, t.trace = s.trace ++ l ∧ countCalls Call.isSend l ≤ 1 ∧ countCalls Call.isRecv l ≤ 20 ∧
      countCalls Call.isDelay l ≤ 20 ∧ countCalls Call.isCrc l ≤ 2 ∧ countCalls Call.isPlatform l ≤ 1

/-! ### What is never read -/

/-- No instruction reads `H.SPEED`: its content before changes nothing but, perhaps, its content after, and for every
instruction but SetPeriodic, which alone writes it, it is passed on as it was. -/
def Obligations.SpeedIsNeverRead : Prop :=
  (∀ (i : Instr) (s : State) (v : Reg Speed),
    mapNext (fun t => t.withSpeed none) (exec i (s.withSpeed v)) =
      mapNext (fun t => t.withSpeed none) (exec i s)) ∧
  ∀ (i : Instr) (s : State) (v : Reg Speed), (∀ sp rp, i ≠ .setPeriodic sp rp) →
    exec i (s.withSpeed v) = mapNext (fun t => t.withSpeed v) (exec i s)

/-- Nothing an instruction does to the handle, the trace or the sequencer depends on the output registers:
the Sample, `ST.VALUE` and the last result. -/
def Obligations.OutputsAreNeverRead : Prop :=
  ∀ (i : Instr) (s : State) (x : Sample) (v : Reg Word) (r : Reg Result),
    mapNext (fun t => t.withOutputs ⟨none, none, none, none, none⟩ none none) (exec i (s.withOutputs x v r)) =
      mapNext (fun t => t.withOutputs ⟨none, none, none, none, none⟩ none none) (exec i s)

/-- No value of the scratch registers is carried into an operation: their contents before it change nothing
but, perhaps, their contents after it. -/
def Obligations.ScratchIsNeverReadBeforeWritten : Prop :=
  ∀ (i : Instr) (s : State) (tx : TxBuf) (rx : RxBuf) (n : BitVec 5),
    mapNext (fun t => t.withScratch ⟨0, 0⟩ ⟨0, 0, 0, 0, 0, 0⟩ 0) (exec i (s.withScratch tx rx n)) =
      mapNext (fun t => t.withScratch ⟨0, 0⟩ ⟨0, 0, 0, 0, 0, 0⟩ 0) (exec i s)

/-! ### The converter -/

/-- The Celsius transfer function: both forms, its exact points and ends, its constant step. -/
def Obligations.CelsiusTransferFunction : Prop :=
  (∀ t : Word, celsiusQ t = (t.toNat : Rat) / 65535 * 175 - 45 ∧
    celsiusQ t = (175 * (t.toNat : Rat) - 45 * 65535) / 65535 ∧
    celsiusQ t = (175 * (t.toNat : Rat) - 2949075) / 65535 ∧ -45 ≤ celsiusQ t ∧ celsiusQ t ≤ 130) ∧
  (∀ t u : Word, t.toNat < u.toNat → celsiusQ t < celsiusQ u) ∧
  (∀ t u : Word, u.toNat = t.toNat + 1 → celsiusQ u - celsiusQ t = 175 / 65535) ∧
  celsiusQ 0 = -45 ∧ celsiusQ 65535 = 130 ∧ celsiusQ 26214 = 25 ∧ celsiusQ 26158 = 325715 / 13107

/-- The Fahrenheit transfer function, computed from the raw count, and that it agrees with Celsius exactly, which
the spec derives. -/
def Obligations.FahrenheitTransferFunction : Prop :=
  (∀ t : Word, fahrenheitQ t = (t.toNat : Rat) / 65535 * 315 - 49 ∧
    fahrenheitQ t = (315 * (t.toNat : Rat) - 3211215) / 65535 ∧
    -49 ≤ fahrenheitQ t ∧ fahrenheitQ t ≤ 266 ∧ fahrenheitQ t = celsiusQ t * (9 / 5) + 32) ∧
  fahrenheitQ 0 = -49 ∧ fahrenheitQ 65535 = 266 ∧ fahrenheitQ 26214 = 77 ∧
  fahrenheitQ 26158 = 335237 / 4369

/-- The humidity transfer function: its exact points and ends, its constant step, and that it never leaves 0 to
100, so nothing is clamped. -/
def Obligations.HumidityTransferFunction : Prop :=
  (∀ h : Word, humidityQ h = (h.toNat : Rat) / 65535 * 100 ∧ 0 ≤ humidityQ h ∧ humidityQ h ≤ 100) ∧
  (∀ h u : Word, u.toNat = h.toNat + 1 → humidityQ u - humidityQ h = 100 / 65535) ∧
  humidityQ 0 = 0 ∧ humidityQ 65535 = 100 ∧ humidityQ 32019 = 213460 / 4369
end

