-- ==== Sys2Proof/Laws/Convert.lean ====
section
/-! SUPPORT. What is known of a delivered value: it is within `CVT_TOL` of its exact rational. -/

namespace Sys2Proof

/-- The one property of `FLT` (R6, R91; log 13). -/
theorem Config.roundFlt_within (q : Rat) : |Config.roundFlt q - q| ≤ (Config.cvtTol : Rat) := by
  unfold Config.roundFlt
  split
  · assumption
  · simp

end Sys2Proof
end

