-- ==== Sys2Proof/Laws/State.lean ====
section
/-! SUPPORT. What each named update of State does to each field: one lemma per field per update, so that no
proof unfolds a record update. -/

namespace Sys2Proof.Machine

variable (s : State)

@[simp] theorem setAddr_cfg (a : BusAddr) : (s.setAddr a).cfg = s.cfg := rfl
@[simp] theorem setAddr_h (a : BusAddr) : (s.setAddr a).h = { s.h with addr := some a } := rfl
@[simp] theorem setAddr_sample (a : BusAddr) : (s.setAddr a).sample = s.sample := rfl
@[simp] theorem setAddr_stValue (a : BusAddr) : (s.setAddr a).stValue = s.stValue := rfl
@[simp] theorem setAddr_res (a : BusAddr) : (s.setAddr a).res = s.res := rfl
@[simp] theorem setAddr_seq (a : BusAddr) : (s.setAddr a).seq = s.seq := rfl
@[simp] theorem setAddr_txbuf (a : BusAddr) : (s.setAddr a).txbuf = s.txbuf := rfl
@[simp] theorem setAddr_rxbuf (a : BusAddr) : (s.setAddr a).rxbuf = s.rxbuf := rfl
@[simp] theorem setAddr_pollCnt (a : BusAddr) : (s.setAddr a).pollCnt = s.pollCnt := rfl
@[simp] theorem setAddr_trace (a : BusAddr) : (s.setAddr a).trace = s.trace := rfl
@[simp] theorem setAddr_adapter (a : BusAddr) : (s.setAddr a).adapter = s.adapter := rfl
@[simp] theorem setAddr_calls (a : BusAddr) : (s.setAddr a).calls = s.calls := rfl
@[simp] theorem setAddr_host (a : BusAddr) : (s.setAddr a).host = s.host := rfl

@[simp] theorem setMode_cfg (m : Mode) : (s.setMode m).cfg = s.cfg := rfl
@[simp] theorem setMode_h (m : Mode) : (s.setMode m).h = { s.h with mode := some m } := rfl
@[simp] theorem setMode_sample (m : Mode) : (s.setMode m).sample = s.sample := rfl
@[simp] theorem setMode_stValue (m : Mode) : (s.setMode m).stValue = s.stValue := rfl
@[simp] theorem setMode_res (m : Mode) : (s.setMode m).res = s.res := rfl
@[simp] theorem setMode_seq (m : Mode) : (s.setMode m).seq = s.seq := rfl
@[simp] theorem setMode_txbuf (m : Mode) : (s.setMode m).txbuf = s.txbuf := rfl
@[simp] theorem setMode_rxbuf (m : Mode) : (s.setMode m).rxbuf = s.rxbuf := rfl
@[simp] theorem setMode_pollCnt (m : Mode) : (s.setMode m).pollCnt = s.pollCnt := rfl
@[simp] theorem setMode_trace (m : Mode) : (s.setMode m).trace = s.trace := rfl
@[simp] theorem setMode_adapter (m : Mode) : (s.setMode m).adapter = s.adapter := rfl
@[simp] theorem setMode_calls (m : Mode) : (s.setMode m).calls = s.calls := rfl
@[simp] theorem setMode_host (m : Mode) : (s.setMode m).host = s.host := rfl

@[simp] theorem setRep_cfg (r : Repeatability) : (s.setRep r).cfg = s.cfg := rfl
@[simp] theorem setRep_h (r : Repeatability) : (s.setRep r).h = { s.h with rep := some r } := rfl
@[simp] theorem setRep_sample (r : Repeatability) : (s.setRep r).sample = s.sample := rfl
@[simp] theorem setRep_stValue (r : Repeatability) : (s.setRep r).stValue = s.stValue := rfl
@[simp] theorem setRep_res (r : Repeatability) : (s.setRep r).res = s.res := rfl
@[simp] theorem setRep_seq (r : Repeatability) : (s.setRep r).seq = s.seq := rfl
@[simp] theorem setRep_txbuf (r : Repeatability) : (s.setRep r).txbuf = s.txbuf := rfl
@[simp] theorem setRep_rxbuf (r : Repeatability) : (s.setRep r).rxbuf = s.rxbuf := rfl
@[simp] theorem setRep_pollCnt (r : Repeatability) : (s.setRep r).pollCnt = s.pollCnt := rfl
@[simp] theorem setRep_trace (r : Repeatability) : (s.setRep r).trace = s.trace := rfl
@[simp] theorem setRep_adapter (r : Repeatability) : (s.setRep r).adapter = s.adapter := rfl
@[simp] theorem setRep_calls (r : Repeatability) : (s.setRep r).calls = s.calls := rfl
@[simp] theorem setRep_host (r : Repeatability) : (s.setRep r).host = s.host := rfl

@[simp] theorem setSpeed_cfg (v : Speed) : (s.setSpeed v).cfg = s.cfg := rfl
@[simp] theorem setSpeed_h (v : Speed) : (s.setSpeed v).h = { s.h with speed := some v } := rfl
@[simp] theorem setSpeed_sample (v : Speed) : (s.setSpeed v).sample = s.sample := rfl
@[simp] theorem setSpeed_stValue (v : Speed) : (s.setSpeed v).stValue = s.stValue := rfl
@[simp] theorem setSpeed_res (v : Speed) : (s.setSpeed v).res = s.res := rfl
@[simp] theorem setSpeed_seq (v : Speed) : (s.setSpeed v).seq = s.seq := rfl
@[simp] theorem setSpeed_txbuf (v : Speed) : (s.setSpeed v).txbuf = s.txbuf := rfl
@[simp] theorem setSpeed_rxbuf (v : Speed) : (s.setSpeed v).rxbuf = s.rxbuf := rfl
@[simp] theorem setSpeed_pollCnt (v : Speed) : (s.setSpeed v).pollCnt = s.pollCnt := rfl
@[simp] theorem setSpeed_trace (v : Speed) : (s.setSpeed v).trace = s.trace := rfl
@[simp] theorem setSpeed_adapter (v : Speed) : (s.setSpeed v).adapter = s.adapter := rfl
@[simp] theorem setSpeed_calls (v : Speed) : (s.setSpeed v).calls = s.calls := rfl
@[simp] theorem setSpeed_host (v : Speed) : (s.setSpeed v).host = s.host := rfl

@[simp] theorem setCrc_cfg (c : CrcBinding) : (s.setCrc c).cfg = s.cfg := rfl
@[simp] theorem setCrc_h (c : CrcBinding) : (s.setCrc c).h = { s.h with crc := c } := rfl
@[simp] theorem setCrc_sample (c : CrcBinding) : (s.setCrc c).sample = s.sample := rfl
@[simp] theorem setCrc_stValue (c : CrcBinding) : (s.setCrc c).stValue = s.stValue := rfl
@[simp] theorem setCrc_res (c : CrcBinding) : (s.setCrc c).res = s.res := rfl
@[simp] theorem setCrc_seq (c : CrcBinding) : (s.setCrc c).seq = s.seq := rfl
@[simp] theorem setCrc_txbuf (c : CrcBinding) : (s.setCrc c).txbuf = s.txbuf := rfl
@[simp] theorem setCrc_rxbuf (c : CrcBinding) : (s.setCrc c).rxbuf = s.rxbuf := rfl
@[simp] theorem setCrc_pollCnt (c : CrcBinding) : (s.setCrc c).pollCnt = s.pollCnt := rfl
@[simp] theorem setCrc_trace (c : CrcBinding) : (s.setCrc c).trace = s.trace := rfl
@[simp] theorem setCrc_adapter (c : CrcBinding) : (s.setCrc c).adapter = s.adapter := rfl
@[simp] theorem setCrc_calls (c : CrcBinding) : (s.setCrc c).calls = s.calls := rfl
@[simp] theorem setCrc_host (c : CrcBinding) : (s.setCrc c).host = s.host := rfl

@[simp] theorem setRaw_cfg (t h : Word) : (s.setRaw t h).cfg = s.cfg := rfl
@[simp] theorem setRaw_h (t h : Word) : (s.setRaw t h).h = s.h := rfl
@[simp] theorem setRaw_sample (t h : Word) : (s.setRaw t h).sample = { s.sample with tRaw := some t, hRaw := some h } := rfl
@[simp] theorem setRaw_stValue (t h : Word) : (s.setRaw t h).stValue = s.stValue := rfl
@[simp] theorem setRaw_res (t h : Word) : (s.setRaw t h).res = s.res := rfl
@[simp] theorem setRaw_seq (t h : Word) : (s.setRaw t h).seq = s.seq := rfl
@[simp] theorem setRaw_txbuf (t h : Word) : (s.setRaw t h).txbuf = s.txbuf := rfl
@[simp] theorem setRaw_rxbuf (t h : Word) : (s.setRaw t h).rxbuf = s.rxbuf := rfl
@[simp] theorem setRaw_pollCnt (t h : Word) : (s.setRaw t h).pollCnt = s.pollCnt := rfl
@[simp] theorem setRaw_trace (t h : Word) : (s.setRaw t h).trace = s.trace := rfl
@[simp] theorem setRaw_adapter (t h : Word) : (s.setRaw t h).adapter = s.adapter := rfl
@[simp] theorem setRaw_calls (t h : Word) : (s.setRaw t h).calls = s.calls := rfl
@[simp] theorem setRaw_host (t h : Word) : (s.setRaw t h).host = s.host := rfl

@[simp] theorem setDerived_cfg (c f h : Flt) : (s.setDerived c f h).cfg = s.cfg := rfl
@[simp] theorem setDerived_h (c f h : Flt) : (s.setDerived c f h).h = s.h := rfl
@[simp] theorem setDerived_sample (c f h : Flt) : (s.setDerived c f h).sample = { s.sample with celsius := some c, fahrenheit := some f, humidity := some h } := rfl
@[simp] theorem setDerived_stValue (c f h : Flt) : (s.setDerived c f h).stValue = s.stValue := rfl
@[simp] theorem setDerived_res (c f h : Flt) : (s.setDerived c f h).res = s.res := rfl
@[simp] theorem setDerived_seq (c f h : Flt) : (s.setDerived c f h).seq = s.seq := rfl
@[simp] theorem setDerived_txbuf (c f h : Flt) : (s.setDerived c f h).txbuf = s.txbuf := rfl
@[simp] theorem setDerived_rxbuf (c f h : Flt) : (s.setDerived c f h).rxbuf = s.rxbuf := rfl
@[simp] theorem setDerived_pollCnt (c f h : Flt) : (s.setDerived c f h).pollCnt = s.pollCnt := rfl
@[simp] theorem setDerived_trace (c f h : Flt) : (s.setDerived c f h).trace = s.trace := rfl
@[simp] theorem setDerived_adapter (c f h : Flt) : (s.setDerived c f h).adapter = s.adapter := rfl
@[simp] theorem setDerived_calls (c f h : Flt) : (s.setDerived c f h).calls = s.calls := rfl
@[simp] theorem setDerived_host (c f h : Flt) : (s.setDerived c f h).host = s.host := rfl

@[simp] theorem setStValue_cfg (v : Word) : (s.setStValue v).cfg = s.cfg := rfl
@[simp] theorem setStValue_h (v : Word) : (s.setStValue v).h = s.h := rfl
@[simp] theorem setStValue_sample (v : Word) : (s.setStValue v).sample = s.sample := rfl
@[simp] theorem setStValue_stValue (v : Word) : (s.setStValue v).stValue = some v := rfl
@[simp] theorem setStValue_res (v : Word) : (s.setStValue v).res = s.res := rfl
@[simp] theorem setStValue_seq (v : Word) : (s.setStValue v).seq = s.seq := rfl
@[simp] theorem setStValue_txbuf (v : Word) : (s.setStValue v).txbuf = s.txbuf := rfl
@[simp] theorem setStValue_rxbuf (v : Word) : (s.setStValue v).rxbuf = s.rxbuf := rfl
@[simp] theorem setStValue_pollCnt (v : Word) : (s.setStValue v).pollCnt = s.pollCnt := rfl
@[simp] theorem setStValue_trace (v : Word) : (s.setStValue v).trace = s.trace := rfl
@[simp] theorem setStValue_adapter (v : Word) : (s.setStValue v).adapter = s.adapter := rfl
@[simp] theorem setStValue_calls (v : Word) : (s.setStValue v).calls = s.calls := rfl
@[simp] theorem setStValue_host (v : Word) : (s.setStValue v).host = s.host := rfl

@[simp] theorem setRes_cfg (r : Result) : (s.setRes r).cfg = s.cfg := rfl
@[simp] theorem setRes_h (r : Result) : (s.setRes r).h = s.h := rfl
@[simp] theorem setRes_sample (r : Result) : (s.setRes r).sample = s.sample := rfl
@[simp] theorem setRes_stValue (r : Result) : (s.setRes r).stValue = s.stValue := rfl
@[simp] theorem setRes_res (r : Result) : (s.setRes r).res = some r := rfl
@[simp] theorem setRes_seq (r : Result) : (s.setRes r).seq = s.seq := rfl
@[simp] theorem setRes_txbuf (r : Result) : (s.setRes r).txbuf = s.txbuf := rfl
@[simp] theorem setRes_rxbuf (r : Result) : (s.setRes r).rxbuf = s.rxbuf := rfl
@[simp] theorem setRes_pollCnt (r : Result) : (s.setRes r).pollCnt = s.pollCnt := rfl
@[simp] theorem setRes_trace (r : Result) : (s.setRes r).trace = s.trace := rfl
@[simp] theorem setRes_adapter (r : Result) : (s.setRes r).adapter = s.adapter := rfl
@[simp] theorem setRes_calls (r : Result) : (s.setRes r).calls = s.calls := rfl
@[simp] theorem setRes_host (r : Result) : (s.setRes r).host = s.host := rfl

@[simp] theorem setTx_cfg (b0 b1 : Byte) : (s.setTx b0 b1).cfg = s.cfg := rfl
@[simp] theorem setTx_h (b0 b1 : Byte) : (s.setTx b0 b1).h = s.h := rfl
@[simp] theorem setTx_sample (b0 b1 : Byte) : (s.setTx b0 b1).sample = s.sample := rfl
@[simp] theorem setTx_stValue (b0 b1 : Byte) : (s.setTx b0 b1).stValue = s.stValue := rfl
@[simp] theorem setTx_res (b0 b1 : Byte) : (s.setTx b0 b1).res = s.res := rfl
@[simp] theorem setTx_seq (b0 b1 : Byte) : (s.setTx b0 b1).seq = s.seq := rfl
@[simp] theorem setTx_txbuf (b0 b1 : Byte) : (s.setTx b0 b1).txbuf = ⟨b0, b1⟩ := rfl
@[simp] theorem setTx_rxbuf (b0 b1 : Byte) : (s.setTx b0 b1).rxbuf = s.rxbuf := rfl
@[simp] theorem setTx_pollCnt (b0 b1 : Byte) : (s.setTx b0 b1).pollCnt = s.pollCnt := rfl
@[simp] theorem setTx_trace (b0 b1 : Byte) : (s.setTx b0 b1).trace = s.trace := rfl
@[simp] theorem setTx_adapter (b0 b1 : Byte) : (s.setTx b0 b1).adapter = s.adapter := rfl
@[simp] theorem setTx_calls (b0 b1 : Byte) : (s.setTx b0 b1).calls = s.calls := rfl
@[simp] theorem setTx_host (b0 b1 : Byte) : (s.setTx b0 b1).host = s.host := rfl

@[simp] theorem setRx_cfg (b : RxBuf) : (s.setRx b).cfg = s.cfg := rfl
@[simp] theorem setRx_h (b : RxBuf) : (s.setRx b).h = s.h := rfl
@[simp] theorem setRx_sample (b : RxBuf) : (s.setRx b).sample = s.sample := rfl
@[simp] theorem setRx_stValue (b : RxBuf) : (s.setRx b).stValue = s.stValue := rfl
@[simp] theorem setRx_res (b : RxBuf) : (s.setRx b).res = s.res := rfl
@[simp] theorem setRx_seq (b : RxBuf) : (s.setRx b).seq = s.seq := rfl
@[simp] theorem setRx_txbuf (b : RxBuf) : (s.setRx b).txbuf = s.txbuf := rfl
@[simp] theorem setRx_rxbuf (b : RxBuf) : (s.setRx b).rxbuf = b := rfl
@[simp] theorem setRx_pollCnt (b : RxBuf) : (s.setRx b).pollCnt = s.pollCnt := rfl
@[simp] theorem setRx_trace (b : RxBuf) : (s.setRx b).trace = s.trace := rfl
@[simp] theorem setRx_adapter (b : RxBuf) : (s.setRx b).adapter = s.adapter := rfl
@[simp] theorem setRx_calls (b : RxBuf) : (s.setRx b).calls = s.calls := rfl
@[simp] theorem setRx_host (b : RxBuf) : (s.setRx b).host = s.host := rfl

@[simp] theorem setPollCnt_cfg (n : BitVec 5) : (s.setPollCnt n).cfg = s.cfg := rfl
@[simp] theorem setPollCnt_h (n : BitVec 5) : (s.setPollCnt n).h = s.h := rfl
@[simp] theorem setPollCnt_sample (n : BitVec 5) : (s.setPollCnt n).sample = s.sample := rfl
@[simp] theorem setPollCnt_stValue (n : BitVec 5) : (s.setPollCnt n).stValue = s.stValue := rfl
@[simp] theorem setPollCnt_res (n : BitVec 5) : (s.setPollCnt n).res = s.res := rfl
@[simp] theorem setPollCnt_seq (n : BitVec 5) : (s.setPollCnt n).seq = s.seq := rfl
@[simp] theorem setPollCnt_txbuf (n : BitVec 5) : (s.setPollCnt n).txbuf = s.txbuf := rfl
@[simp] theorem setPollCnt_rxbuf (n : BitVec 5) : (s.setPollCnt n).rxbuf = s.rxbuf := rfl
@[simp] theorem setPollCnt_pollCnt (n : BitVec 5) : (s.setPollCnt n).pollCnt = n := rfl
@[simp] theorem setPollCnt_trace (n : BitVec 5) : (s.setPollCnt n).trace = s.trace := rfl
@[simp] theorem setPollCnt_adapter (n : BitVec 5) : (s.setPollCnt n).adapter = s.adapter := rfl
@[simp] theorem setPollCnt_calls (n : BitVec 5) : (s.setPollCnt n).calls = s.calls := rfl
@[simp] theorem setPollCnt_host (n : BitVec 5) : (s.setPollCnt n).host = s.host := rfl

@[simp] theorem setSeq_cfg (q : Seq) : (s.setSeq q).cfg = s.cfg := rfl
@[simp] theorem setSeq_h (q : Seq) : (s.setSeq q).h = s.h := rfl
@[simp] theorem setSeq_sample (q : Seq) : (s.setSeq q).sample = s.sample := rfl
@[simp] theorem setSeq_stValue (q : Seq) : (s.setSeq q).stValue = s.stValue := rfl
@[simp] theorem setSeq_res (q : Seq) : (s.setSeq q).res = s.res := rfl
@[simp] theorem setSeq_seq (q : Seq) : (s.setSeq q).seq = q := rfl
@[simp] theorem setSeq_txbuf (q : Seq) : (s.setSeq q).txbuf = s.txbuf := rfl
@[simp] theorem setSeq_rxbuf (q : Seq) : (s.setSeq q).rxbuf = s.rxbuf := rfl
@[simp] theorem setSeq_pollCnt (q : Seq) : (s.setSeq q).pollCnt = s.pollCnt := rfl
@[simp] theorem setSeq_trace (q : Seq) : (s.setSeq q).trace = s.trace := rfl
@[simp] theorem setSeq_adapter (q : Seq) : (s.setSeq q).adapter = s.adapter := rfl
@[simp] theorem setSeq_calls (q : Seq) : (s.setSeq q).calls = s.calls := rfl
@[simp] theorem setSeq_host (q : Seq) : (s.setSeq q).host = s.host := rfl

@[simp] theorem setHost_cfg (l : List HostEvent) : (s.setHost l).cfg = s.cfg := rfl
@[simp] theorem setHost_h (l : List HostEvent) : (s.setHost l).h = s.h := rfl
@[simp] theorem setHost_sample (l : List HostEvent) : (s.setHost l).sample = s.sample := rfl
@[simp] theorem setHost_stValue (l : List HostEvent) : (s.setHost l).stValue = s.stValue := rfl
@[simp] theorem setHost_res (l : List HostEvent) : (s.setHost l).res = s.res := rfl
@[simp] theorem setHost_seq (l : List HostEvent) : (s.setHost l).seq = s.seq := rfl
@[simp] theorem setHost_txbuf (l : List HostEvent) : (s.setHost l).txbuf = s.txbuf := rfl
@[simp] theorem setHost_rxbuf (l : List HostEvent) : (s.setHost l).rxbuf = s.rxbuf := rfl
@[simp] theorem setHost_pollCnt (l : List HostEvent) : (s.setHost l).pollCnt = s.pollCnt := rfl
@[simp] theorem setHost_trace (l : List HostEvent) : (s.setHost l).trace = s.trace := rfl
@[simp] theorem setHost_adapter (l : List HostEvent) : (s.setHost l).adapter = s.adapter := rfl
@[simp] theorem setHost_calls (l : List HostEvent) : (s.setHost l).calls = s.calls := rfl
@[simp] theorem setHost_host (l : List HostEvent) : (s.setHost l).host = l := rfl

@[simp] theorem record_cfg (e : Event) : (s.record e).cfg = s.cfg := rfl
@[simp] theorem record_h (e : Event) : (s.record e).h = s.h := rfl
@[simp] theorem record_sample (e : Event) : (s.record e).sample = s.sample := rfl
@[simp] theorem record_stValue (e : Event) : (s.record e).stValue = s.stValue := rfl
@[simp] theorem record_res (e : Event) : (s.record e).res = s.res := rfl
@[simp] theorem record_seq (e : Event) : (s.record e).seq = s.seq := rfl
@[simp] theorem record_txbuf (e : Event) : (s.record e).txbuf = s.txbuf := rfl
@[simp] theorem record_rxbuf (e : Event) : (s.record e).rxbuf = s.rxbuf := rfl
@[simp] theorem record_pollCnt (e : Event) : (s.record e).pollCnt = s.pollCnt := rfl
@[simp] theorem record_trace (e : Event) : (s.record e).trace = s.trace ++ [e] := rfl
@[simp] theorem record_adapter (e : Event) : (s.record e).adapter = s.adapter.tail := rfl
@[simp] theorem record_calls (e : Event) : (s.record e).calls = s.calls + 1 := rfl
@[simp] theorem record_host (e : Event) : (s.record e).host = s.host := rfl

/-! Updates made of others. -/

@[simp] theorem goto_cfg (op : Operation) (line : Nat) : (s.goto op line).cfg = s.cfg := rfl
@[simp] theorem goto_h (op : Operation) (line : Nat) : (s.goto op line).h = s.h := rfl
@[simp] theorem goto_sample (op : Operation) (line : Nat) : (s.goto op line).sample = s.sample := rfl
@[simp] theorem goto_stValue (op : Operation) (line : Nat) : (s.goto op line).stValue = s.stValue := rfl
@[simp] theorem goto_res (op : Operation) (line : Nat) : (s.goto op line).res = s.res := rfl
@[simp] theorem goto_seq (op : Operation) (line : Nat) : (s.goto op line).seq = .running op line := rfl
@[simp] theorem goto_txbuf (op : Operation) (line : Nat) : (s.goto op line).txbuf = s.txbuf := rfl
@[simp] theorem goto_rxbuf (op : Operation) (line : Nat) : (s.goto op line).rxbuf = s.rxbuf := rfl
@[simp] theorem goto_pollCnt (op : Operation) (line : Nat) : (s.goto op line).pollCnt = s.pollCnt := rfl
@[simp] theorem goto_trace (op : Operation) (line : Nat) : (s.goto op line).trace = s.trace := rfl
@[simp] theorem goto_adapter (op : Operation) (line : Nat) : (s.goto op line).adapter = s.adapter := rfl
@[simp] theorem goto_calls (op : Operation) (line : Nat) : (s.goto op line).calls = s.calls := rfl
@[simp] theorem goto_host (op : Operation) (line : Nat) : (s.goto op line).host = s.host := rfl

@[simp] theorem resolve_cfg (sel : Nat) : (s.resolve sel).cfg = s.cfg := rfl
@[simp] theorem resolve_h (sel : Nat) : (s.resolve sel).h = { s.h with addr := resolveAddr s.cfg.addrDefaultPolicy s.h.addr sel } := rfl
@[simp] theorem resolve_sample (sel : Nat) : (s.resolve sel).sample = s.sample := rfl
@[simp] theorem resolve_stValue (sel : Nat) : (s.resolve sel).stValue = s.stValue := rfl
@[simp] theorem resolve_res (sel : Nat) : (s.resolve sel).res = s.res := rfl
@[simp] theorem resolve_seq (sel : Nat) : (s.resolve sel).seq = s.seq := rfl
@[simp] theorem resolve_txbuf (sel : Nat) : (s.resolve sel).txbuf = s.txbuf := rfl
@[simp] theorem resolve_rxbuf (sel : Nat) : (s.resolve sel).rxbuf = s.rxbuf := rfl
@[simp] theorem resolve_pollCnt (sel : Nat) : (s.resolve sel).pollCnt = s.pollCnt := rfl
@[simp] theorem resolve_trace (sel : Nat) : (s.resolve sel).trace = s.trace := rfl
@[simp] theorem resolve_adapter (sel : Nat) : (s.resolve sel).adapter = s.adapter := rfl
@[simp] theorem resolve_calls (sel : Nat) : (s.resolve sel).calls = s.calls := rfl
@[simp] theorem resolve_host (sel : Nat) : (s.resolve sel).host = s.host := rfl

@[simp] theorem convert_cfg (t h : Word) : (s.convert t h).cfg = s.cfg := rfl
@[simp] theorem convert_h (t h : Word) : (s.convert t h).h = s.h := rfl
@[simp] theorem convert_sample (t h : Word) : (s.convert t h).sample = { s.sample with celsius := some (Config.roundFlt (celsiusQ t)), fahrenheit := some (Config.roundFlt (fahrenheitQ t)), humidity := some (Config.roundFlt (humidityQ h)) } := rfl
@[simp] theorem convert_stValue (t h : Word) : (s.convert t h).stValue = s.stValue := rfl
@[simp] theorem convert_res (t h : Word) : (s.convert t h).res = s.res := rfl
@[simp] theorem convert_seq (t h : Word) : (s.convert t h).seq = s.seq := rfl
@[simp] theorem convert_txbuf (t h : Word) : (s.convert t h).txbuf = s.txbuf := rfl
@[simp] theorem convert_rxbuf (t h : Word) : (s.convert t h).rxbuf = s.rxbuf := rfl
@[simp] theorem convert_pollCnt (t h : Word) : (s.convert t h).pollCnt = s.pollCnt := rfl
@[simp] theorem convert_trace (t h : Word) : (s.convert t h).trace = s.trace := rfl
@[simp] theorem convert_adapter (t h : Word) : (s.convert t h).adapter = s.adapter := rfl
@[simp] theorem convert_calls (t h : Word) : (s.convert t h).calls = s.calls := rfl
@[simp] theorem convert_host (t h : Word) : (s.convert t h).host = s.host := rfl

@[simp] theorem atPowerOn_resetValues {α : Type} {c : Config} (h : c.powerOnRegisters = .resetValues) (v : α) :
    atPowerOn c v = some v := by
  simp [atPowerOn, h]
@[simp] theorem atPowerOn_noValue {α : Type} {c : Config} (h : c.powerOnRegisters = .noValue) (v : α) :
    atPowerOn c v = none := by
  simp [atPowerOn, h]
/-- At power-on a register holds its reset value or none. -/
theorem atPowerOn_cases {α : Type} (c : Config) (v : α) : atPowerOn c v = none ∨ atPowerOn c v = some v := by
  cases h : c.powerOnRegisters <;> simp [h]

@[simp] theorem hardwareReset_cfg : (s.hardwareReset).cfg = s.cfg := rfl
@[simp] theorem hardwareReset_h : (s.hardwareReset).h = Handle.powerOn s.cfg := rfl
@[simp] theorem hardwareReset_sample : (s.hardwareReset).sample = Sample.powerOn s.cfg := rfl
@[simp] theorem hardwareReset_stValue : (s.hardwareReset).stValue = atPowerOn s.cfg 0 := rfl
@[simp] theorem hardwareReset_res : (s.hardwareReset).res = atPowerOn s.cfg .ok := rfl
@[simp] theorem hardwareReset_seq : (s.hardwareReset).seq = .idle := rfl
@[simp] theorem hardwareReset_txbuf : (s.hardwareReset).txbuf = ⟨0, 0⟩ := rfl
@[simp] theorem hardwareReset_rxbuf : (s.hardwareReset).rxbuf = ⟨0, 0, 0, 0, 0, 0⟩ := rfl
@[simp] theorem hardwareReset_pollCnt : (s.hardwareReset).pollCnt = 0 := rfl
@[simp] theorem hardwareReset_trace : (s.hardwareReset).trace = s.trace := rfl
@[simp] theorem hardwareReset_adapter : (s.hardwareReset).adapter = s.adapter := rfl
@[simp] theorem hardwareReset_calls : (s.hardwareReset).calls = s.calls := rfl
@[simp] theorem hardwareReset_host : (s.hardwareReset).host = s.host := rfl

/-! The installation of the default CRC check changes `H.CRC` only. -/

@[simp] theorem installCrc_cfg : s.installCrc.cfg = s.cfg := by
  unfold State.installCrc; split <;> rfl
@[simp] theorem installCrc_sample : s.installCrc.sample = s.sample := by
  unfold State.installCrc; split <;> rfl
@[simp] theorem installCrc_stValue : s.installCrc.stValue = s.stValue := by
  unfold State.installCrc; split <;> rfl
@[simp] theorem installCrc_res : s.installCrc.res = s.res := by
  unfold State.installCrc; split <;> rfl
@[simp] theorem installCrc_seq : s.installCrc.seq = s.seq := by
  unfold State.installCrc; split <;> rfl
@[simp] theorem installCrc_txbuf : s.installCrc.txbuf = s.txbuf := by
  unfold State.installCrc; split <;> rfl
@[simp] theorem installCrc_rxbuf : s.installCrc.rxbuf = s.rxbuf := by
  unfold State.installCrc; split <;> rfl
@[simp] theorem installCrc_pollCnt : s.installCrc.pollCnt = s.pollCnt := by
  unfold State.installCrc; split <;> rfl
@[simp] theorem installCrc_trace : s.installCrc.trace = s.trace := by
  unfold State.installCrc; split <;> rfl
@[simp] theorem installCrc_adapter : s.installCrc.adapter = s.adapter := by
  unfold State.installCrc; split <;> rfl
@[simp] theorem installCrc_calls : s.installCrc.calls = s.calls := by
  unfold State.installCrc; split <;> rfl
@[simp] theorem installCrc_host : s.installCrc.host = s.host := by
  unfold State.installCrc; split <;> rfl
@[simp] theorem installCrc_h_addr : s.installCrc.h.addr = s.h.addr := by
  unfold State.installCrc; split <;> rfl
@[simp] theorem installCrc_h_mode : s.installCrc.h.mode = s.h.mode := by
  unfold State.installCrc; split <;> rfl
@[simp] theorem installCrc_h_rep : s.installCrc.h.rep = s.h.rep := by
  unfold State.installCrc; split <;> rfl
@[simp] theorem installCrc_h_speed : s.installCrc.h.speed = s.h.speed := by
  unfold State.installCrc; split <;> rfl

theorem installCrc_h_crc :
    s.installCrc.h.crc = if s.h.crc = .unbound then .default else s.h.crc := by
  unfold State.installCrc; split <;> simp_all [State.setCrc]

end Sys2Proof.Machine
end

