-- ==== Sys2Proof/Laws/Effects.lean ====
section
/-! SUPPORT. What an answered call and a return do to each field: one lemma per field, so that no proof unfolds
them. -/

namespace Sys2Proof.Machine

variable (s : State)

@[simp] theorem afterSend_cfg (a : BusAddr) (b0 b1 : Byte) (st : Status) :
    (s.afterSend a b0 b1 st).cfg = s.cfg := rfl
@[simp] theorem afterSend_h (a : BusAddr) (b0 b1 : Byte) (st : Status) :
    (s.afterSend a b0 b1 st).h = s.h := rfl
@[simp] theorem afterSend_sample (a : BusAddr) (b0 b1 : Byte) (st : Status) :
    (s.afterSend a b0 b1 st).sample = s.sample := rfl
@[simp] theorem afterSend_stValue (a : BusAddr) (b0 b1 : Byte) (st : Status) :
    (s.afterSend a b0 b1 st).stValue = s.stValue := rfl
@[simp] theorem afterSend_res (a : BusAddr) (b0 b1 : Byte) (st : Status) :
    (s.afterSend a b0 b1 st).res = s.res := rfl
@[simp] theorem afterSend_seq (a : BusAddr) (b0 b1 : Byte) (st : Status) :
    (s.afterSend a b0 b1 st).seq = s.seq := rfl
@[simp] theorem afterSend_txbuf (a : BusAddr) (b0 b1 : Byte) (st : Status) :
    (s.afterSend a b0 b1 st).txbuf = ⟨b0, b1⟩ := rfl
@[simp] theorem afterSend_rxbuf (a : BusAddr) (b0 b1 : Byte) (st : Status) :
    (s.afterSend a b0 b1 st).rxbuf = s.rxbuf := rfl
@[simp] theorem afterSend_pollCnt (a : BusAddr) (b0 b1 : Byte) (st : Status) :
    (s.afterSend a b0 b1 st).pollCnt = s.pollCnt := rfl
@[simp] theorem afterSend_trace (a : BusAddr) (b0 b1 : Byte) (st : Status) :
    (s.afterSend a b0 b1 st).trace = s.trace ++ [⟨.send a b0 b1, .status st⟩] := rfl
@[simp] theorem afterSend_adapter (a : BusAddr) (b0 b1 : Byte) (st : Status) :
    (s.afterSend a b0 b1 st).adapter = s.adapter.tail := rfl
@[simp] theorem afterSend_calls (a : BusAddr) (b0 b1 : Byte) (st : Status) :
    (s.afterSend a b0 b1 st).calls = s.calls + 1 := rfl
@[simp] theorem afterSend_host (a : BusAddr) (b0 b1 : Byte) (st : Status) :
    (s.afterSend a b0 b1 st).host = s.host := rfl

@[simp] theorem afterRecv_cfg (a : BusAddr) (n : Nat) (st : Status) (buf : RxBuf) :
    (s.afterRecv a n st buf).cfg = s.cfg := rfl
@[simp] theorem afterRecv_h (a : BusAddr) (n : Nat) (st : Status) (buf : RxBuf) :
    (s.afterRecv a n st buf).h = s.h := rfl
@[simp] theorem afterRecv_sample (a : BusAddr) (n : Nat) (st : Status) (buf : RxBuf) :
    (s.afterRecv a n st buf).sample = s.sample := rfl
@[simp] theorem afterRecv_stValue (a : BusAddr) (n : Nat) (st : Status) (buf : RxBuf) :
    (s.afterRecv a n st buf).stValue = s.stValue := rfl
@[simp] theorem afterRecv_res (a : BusAddr) (n : Nat) (st : Status) (buf : RxBuf) :
    (s.afterRecv a n st buf).res = s.res := rfl
@[simp] theorem afterRecv_seq (a : BusAddr) (n : Nat) (st : Status) (buf : RxBuf) :
    (s.afterRecv a n st buf).seq = s.seq := rfl
@[simp] theorem afterRecv_txbuf (a : BusAddr) (n : Nat) (st : Status) (buf : RxBuf) :
    (s.afterRecv a n st buf).txbuf = s.txbuf := rfl
@[simp] theorem afterRecv_rxbuf (a : BusAddr) (n : Nat) (st : Status) (buf : RxBuf) :
    (s.afterRecv a n st buf).rxbuf = s.rxbuf.receive n buf := rfl
@[simp] theorem afterRecv_pollCnt (a : BusAddr) (n : Nat) (st : Status) (buf : RxBuf) :
    (s.afterRecv a n st buf).pollCnt = s.pollCnt := rfl
@[simp] theorem afterRecv_trace (a : BusAddr) (n : Nat) (st : Status) (buf : RxBuf) :
    (s.afterRecv a n st buf).trace = s.trace ++ [⟨.recv a n, .received st (buf.bytes.take n)⟩] := rfl
@[simp] theorem afterRecv_adapter (a : BusAddr) (n : Nat) (st : Status) (buf : RxBuf) :
    (s.afterRecv a n st buf).adapter = s.adapter.tail := rfl
@[simp] theorem afterRecv_calls (a : BusAddr) (n : Nat) (st : Status) (buf : RxBuf) :
    (s.afterRecv a n st buf).calls = s.calls + 1 := rfl
@[simp] theorem afterRecv_host (a : BusAddr) (n : Nat) (st : Status) (buf : RxBuf) :
    (s.afterRecv a n st buf).host = s.host := rfl

@[simp] theorem afterCall_cfg (c : Call) (st : Status) : (s.afterCall c st).cfg = s.cfg := rfl
@[simp] theorem afterCall_h (c : Call) (st : Status) : (s.afterCall c st).h = s.h := rfl
@[simp] theorem afterCall_sample (c : Call) (st : Status) : (s.afterCall c st).sample = s.sample := rfl
@[simp] theorem afterCall_stValue (c : Call) (st : Status) : (s.afterCall c st).stValue = s.stValue := rfl
@[simp] theorem afterCall_res (c : Call) (st : Status) : (s.afterCall c st).res = s.res := rfl
@[simp] theorem afterCall_seq (c : Call) (st : Status) : (s.afterCall c st).seq = s.seq := rfl
@[simp] theorem afterCall_txbuf (c : Call) (st : Status) : (s.afterCall c st).txbuf = s.txbuf := rfl
@[simp] theorem afterCall_rxbuf (c : Call) (st : Status) : (s.afterCall c st).rxbuf = s.rxbuf := rfl
@[simp] theorem afterCall_pollCnt (c : Call) (st : Status) : (s.afterCall c st).pollCnt = s.pollCnt := rfl
@[simp] theorem afterCall_trace (c : Call) (st : Status) :
    (s.afterCall c st).trace = s.trace ++ [⟨c, .status st⟩] := rfl
@[simp] theorem afterCall_adapter (c : Call) (st : Status) :
    (s.afterCall c st).adapter = s.adapter.tail := rfl
@[simp] theorem afterCall_calls (c : Call) (st : Status) : (s.afterCall c st).calls = s.calls + 1 := rfl
@[simp] theorem afterCall_host (c : Call) (st : Status) : (s.afterCall c st).host = s.host := rfl

@[simp] theorem finish_cfg (r : Result) : (s.finish r).cfg = s.cfg := rfl
@[simp] theorem finish_h (r : Result) : (s.finish r).h = s.h := rfl
@[simp] theorem finish_sample (r : Result) : (s.finish r).sample = s.sample := rfl
@[simp] theorem finish_stValue (r : Result) : (s.finish r).stValue = s.stValue := rfl
@[simp] theorem finish_res (r : Result) : (s.finish r).res = some r := rfl
@[simp] theorem finish_seq (r : Result) : (s.finish r).seq = .idle := rfl
@[simp] theorem finish_txbuf (r : Result) : (s.finish r).txbuf = s.txbuf := rfl
@[simp] theorem finish_rxbuf (r : Result) : (s.finish r).rxbuf = s.rxbuf := rfl
@[simp] theorem finish_pollCnt (r : Result) : (s.finish r).pollCnt = s.pollCnt := rfl
@[simp] theorem finish_trace (r : Result) : (s.finish r).trace = s.trace := rfl
@[simp] theorem finish_adapter (r : Result) : (s.finish r).adapter = s.adapter := rfl
@[simp] theorem finish_calls (r : Result) : (s.finish r).calls = s.calls := rfl
@[simp] theorem finish_host (r : Result) : (s.finish r).host = s.host := rfl

end Sys2Proof.Machine
end

