-- ==== Sys2Proof/Laws/Encoding.lean ====
section
/-! SUPPORT. The words: a word from its two bytes, and the fields of a request word. -/

namespace Sys2Proof

/-- The two bytes of a word make it up again. -/
theorem word16_split (w : Word) : word16 (hiByte w) (loByte w) = w := by
  unfold word16 hiByte loByte
  ext i hi
  simp only [BitVec.getElem_or, BitVec.getElem_shiftLeft, BitVec.getElem_setWidth,
    BitVec.getLsbD_extractLsb']
  by_cases h : i < 8
  · simp [h, BitVec.getLsbD_eq_getElem, hi]
  · have h1 : 8 + (i - 8) = i := by omega
    have h2 : i - 8 < 8 := by omega
    simp [h, h1, h2, BitVec.getLsbD_eq_getElem, hi]

/-- The three fields of a request word are the numbers it was made of (R54). -/
theorem reqWord_fields {op a b : Nat} (ho : op < 16) (ha : a < 256) (hb : b < 16) :
    reqOp (reqWord op a b) = op ∧ reqA (reqWord op a b) = a ∧ reqB (reqWord op a b) = b := by
  unfold reqOp reqA reqB reqWord
  simp only [BitVec.extractLsb'_toNat, BitVec.toNat_ofNat, Nat.shiftRight_eq_div_pow]
  omega

end Sys2Proof
end

