-- ==== Sys2Proof/Laws/Ops.lean ====
section
/-! SUPPORT. What each shared operation can do, said once: where it goes on (the `_returns` lemmas), where it
stops, and a rule for every property of what is answered (the `_all` lemmas). -/

namespace Sys2Proof.Machine

/-! ### Answers -/

theorem answerAt_record (s : State) (e : Event) (k : Nat) :
    (s.record e).answerAt k = s.answerAt (k + 1) := by
  simp [State.answerAt, Nat.add_right_comm, Nat.add_assoc]

/-- The answers depend on the script and the counter alone. -/
theorem answerAt_congr {s t : State} (ha : t.adapter = s.adapter) (hc : t.calls = s.calls) (k : Nat) :
    t.answerAt k = s.answerAt k := by
  simp [State.answerAt, ha, hc]

@[simp] theorem answerAt_setTx (s : State) (b0 b1 : Byte) (k : Nat) :
    (s.setTx b0 b1).answerAt k = s.answerAt k := rfl
@[simp] theorem answerAt_setRx (s : State) (b : RxBuf) (k : Nat) :
    (s.setRx b).answerAt k = s.answerAt k := rfl
@[simp] theorem answerAt_setSeq (s : State) (q : Seq) (k : Nat) :
    (s.setSeq q).answerAt k = s.answerAt k := rfl
@[simp] theorem answerAt_goto (s : State) (op : Operation) (l k : Nat) :
    (s.goto op l).answerAt k = s.answerAt k := rfl
@[simp] theorem answerAt_setPollCnt (s : State) (n : BitVec 5) (k : Nat) :
    (s.setPollCnt n).answerAt k = s.answerAt k := rfl
@[simp] theorem answerAt_setRaw (s : State) (t h : Word) (k : Nat) :
    (s.setRaw t h).answerAt k = s.answerAt k := rfl
@[simp] theorem answerAt_setStValue (s : State) (v : Word) (k : Nat) :
    (s.setStValue v).answerAt k = s.answerAt k := rfl
@[simp] theorem answerAt_setMode (s : State) (m : Mode) (k : Nat) :
    (s.setMode m).answerAt k = s.answerAt k := rfl
@[simp] theorem answerAt_setRep (s : State) (r : Repeatability) (k : Nat) :
    (s.setRep r).answerAt k = s.answerAt k := rfl
@[simp] theorem answerAt_resolve (s : State) (sel k : Nat) :
    (s.resolve sel).answerAt k = s.answerAt k := rfl
@[simp] theorem answerAt_installCrc (s : State) (k : Nat) :
    s.installCrc.answerAt k = s.answerAt k :=
  answerAt_congr (by simp) (by simp) k

/-- With every call returning, an answer is a status and bytes. -/
theorem answerAt_of_returns {s : State} (h : AdapterReturns s) (k : Nat) :
    ∃ st buf, s.answerAt k = .returns st buf := by
  unfold State.answerAt
  split
  · rename_i a ha
    cases a with
    | returns st buf => exact ⟨st, buf, rfl⟩
    | never => exact absurd rfl (h _ (List.mem_of_getElem? ha))
  · exact ⟨_, _, rfl⟩

theorem AdapterReturns.record {s : State} (h : AdapterReturns s) (e : Event) :
    AdapterReturns (s.record e) :=
  fun a ha => h a (List.mem_of_mem_tail ha)

@[simp] theorem statusOk_zero : statusOk 0 = true := rfl

theorem statusOk_iff (st : Status) : statusOk st = true ↔ st = 0 := by simp [statusOk]

/-! ### Why a line faults -/

/-- What holds of a state in which a line faults so: the register is unwritten, the check or the capability is
not bound, the encoding is the reserved one. -/
def FaultCause (s : State) : Fault → Prop
  | .registerHoldsNoValue .addr => s.h.addr = none
  | .registerHoldsNoValue .mode => s.h.mode = none
  | .registerHoldsNoValue .rep => s.h.rep = none
  | .crcUnbound => s.h.crc = .unbound
  | .capabilityUnbound .send => s.cfg.hasSend = false
  | .capabilityUnbound .recv => s.cfg.hasRecv = false
  | .capabilityUnbound .delay => s.cfg.hasDelay = false
  | .capabilityUnbound .crcCheck => s.h.crc = .ext ∧ s.cfg.hasCrc = false
  | .capabilityUnbound .platformInit | .capabilityUnbound .platformDeInit => False
  | .reservedEncoding => s.h.rep = some .reserved

/-- A cause depends on the handle and the straps alone. -/
theorem FaultCause.congr {s t : State} {r : Fault} (h : FaultCause t r) (hc : t.cfg = s.cfg)
    (hh : t.h = s.h) : FaultCause s r := by
  unfold FaultCause at h ⊢
  rw [← hc, ← hh]
  exact h

/-- In a ready state no line faults. -/
theorem Ready.no_cause {s : State} (h : Ready s) (r : Fault) : ¬ FaultCause s r := by
  intro hc
  rcases r with (_ | _ | _) | _ | (_ | _ | _ | _ | _ | _) | _
  · exact h.addr hc
  · exact h.mode hc
  · rcases h.rep with hr | hr | hr <;> exact absurd (hr.symm.trans hc) (by simp)
  · exact h.crc hc
  · exact absurd (h.send.symm.trans hc) (by decide)
  · exact absurd (h.recv.symm.trans hc) (by decide)
  · exact absurd (h.delay.symm.trans hc) (by decide)
  · exact hc
  · exact hc
  · exact absurd ((h.ext hc.1).symm.trans hc.2) (by decide)
  · rcases h.rep with hr | hr | hr <;> exact absurd (hr.symm.trans hc) (by simp)

/-! ### callAdapter -/

section CallAdapter
variable {c : Call} {s : State} {k : Status → RxBuf → State → Out}

theorem callAdapter_returns {st : Status} {buf : RxBuf}
    (hb : capabilityBound s.cfg c.capability = true) (ha : s.answerAt 0 = .returns st buf) :
    callAdapter c s k = k st buf (s.record ⟨c, c.reply st buf⟩) := by
  simp [callAdapter, hb, ha]

theorem callAdapter_never
    (hb : capabilityBound s.cfg c.capability = true) (ha : s.answerAt 0 = .never) :
    callAdapter c s k = .next (s.record ⟨c, .never⟩) := by
  simp [callAdapter, hb, ha]

theorem callAdapter_unbound (hb : capabilityBound s.cfg c.capability = false) :
    callAdapter c s k = .fault (.capabilityUnbound c.capability) := by
  simp [callAdapter, hb]

/-- Everything one adapter call can do. -/
theorem callAdapter_all {P : Out → Prop}
    (hf : capabilityBound s.cfg c.capability = false → P (.fault (.capabilityUnbound c.capability)))
    (hn : s.answerAt 0 = .never → P (.next (s.record ⟨c, .never⟩)))
    (hk : ∀ st buf, P (k st buf (s.record ⟨c, c.reply st buf⟩))) :
    P (callAdapter c s k) := by
  unfold callAdapter
  split
  · split
    · exact hk _ _
    · exact hn ‹_›
  · rename_i h
    exact hf (by simpa using h)

end CallAdapter

/-! ### The primitives built on it -/

section Primitives
variable {s : State}

theorem readAddr_some {a : BusAddr} {k : BusAddr → Out} (h : s.h.addr = some a) :
    readAddr s k = k a := by
  simp [readAddr, h]

theorem readAddr_none {k : BusAddr → Out} (h : s.h.addr = none) :
    readAddr s k = .fault (.registerHoldsNoValue .addr) := by
  simp [readAddr, h]

theorem writeCommand_returns {cmd : Word} {k : Bool → State → Out} {a : BusAddr} {st : Status}
    {buf : RxBuf} (ha : s.h.addr = some a) (hs : s.cfg.hasSend = true)
    (hr : s.answerAt 0 = .returns st buf) :
    writeCommand cmd s k = k (statusOk st) (s.afterSend a (hiByte cmd) (loByte cmd) st) := by
  rw [writeCommand, readAddr_some ha, callAdapter_returns (by simpa [capabilityBound, Call.capability])
    (by simpa using hr)]
  rfl

theorem busRecv_returns {n : Nat} {k : Status → State → Out} {a : BusAddr} {st : Status}
    {buf : RxBuf} (ha : s.h.addr = some a) (hs : s.cfg.hasRecv = true)
    (hr : s.answerAt 0 = .returns st buf) :
    busRecv n s k = k st (s.afterRecv a n st buf) := by
  rw [busRecv, readAddr_some ha, callAdapter_returns (by simpa [capabilityBound, Call.capability]) hr]
  rfl

theorem delay_returns {ms : Nat} {k : State → Out} {st : Status} {buf : RxBuf}
    (hs : s.cfg.hasDelay = true) (hr : s.answerAt 0 = .returns st buf) :
    delay ms s k = k (s.afterCall (.delay ms) st) := by
  rw [delay, callAdapter_returns (by simpa [capabilityBound, Call.capability]) hr]
  rfl

theorem crcCheck_default {v : Word} {c : Byte} {k : Bool → State → Out} (h : s.h.crc = .default) :
    crcCheck v c s k = k true s := by
  simp [crcCheck, h]

theorem crcCheck_unbound {v : Word} {c : Byte} {k : Bool → State → Out} (h : s.h.crc = .unbound) :
    crcCheck v c s k = .fault .crcUnbound := by
  simp [crcCheck, h]

theorem crcCheck_ext {v : Word} {c : Byte} {k : Bool → State → Out} {st : Status} {buf : RxBuf}
    (h : s.h.crc = .ext) (hc : s.cfg.hasCrc = true) (hr : s.answerAt 0 = .returns st buf) :
    crcCheck v c s k = k (statusOk st) (s.afterCall (.crc v c) st) := by
  simp only [crcCheck, h]
  rw [callAdapter_returns (by simpa [capabilityBound, Call.capability]) hr]
  rfl

/-- Everything `WriteCommand` can do. -/
theorem writeCommand_all {cmd : Word} {k : Bool → State → Out} {P : Out → Prop}
    (hf : ∀ r, FaultCause s r → P (.fault r))
    (hn : ∀ a, s.h.addr = some a → s.answerAt 0 = .never →
      P (.next ((s.setTx (hiByte cmd) (loByte cmd)).record ⟨.send a (hiByte cmd) (loByte cmd), .never⟩)))
    (hk : ∀ a st, s.h.addr = some a →
      P (k (statusOk st) (s.afterSend a (hiByte cmd) (loByte cmd) st))) :
    P (writeCommand cmd s k) := by
  unfold writeCommand readAddr
  split
  · rename_i a ha
    exact callAdapter_all (fun h => hf _ h) (hn a ha) fun st _ => hk a st ha
  · exact hf _ ‹_›

/-- Everything a Receive can do. -/
theorem busRecv_all {n : Nat} {k : Status → State → Out} {P : Out → Prop}
    (hf : ∀ r, FaultCause s r → P (.fault r))
    (hn : ∀ a, s.h.addr = some a → s.answerAt 0 = .never → P (.next (s.record ⟨.recv a n, .never⟩)))
    (hk : ∀ a st buf, s.h.addr = some a → P (k st (s.afterRecv a n st buf))) :
    P (busRecv n s k) := by
  unfold busRecv readAddr
  split
  · rename_i a ha
    exact callAdapter_all (fun h => hf _ h) (hn a ha) fun st buf => hk a st buf ha
  · exact hf _ ‹_›

/-- Everything a Delay can do. -/
theorem delay_all {ms : Nat} {k : State → Out} {P : Out → Prop}
    (hf : ∀ r, FaultCause s r → P (.fault r))
    (hn : s.answerAt 0 = .never → P (.next (s.record ⟨.delay ms, .never⟩)))
    (hk : ∀ st, P (k (s.afterCall (.delay ms) st))) :
    P (delay ms s k) :=
  callAdapter_all (fun h => hf _ h) hn fun st _ => hk st

/-- Everything `CrcCheck` can do. -/
theorem crcCheck_all {v : Word} {c : Byte} {k : Bool → State → Out} {P : Out → Prop}
    (hf : ∀ r, FaultCause s r → P (.fault r))
    (hn : s.h.crc = .ext → s.answerAt 0 = .never → P (.next (s.record ⟨.crc v c, .never⟩)))
    (hext : ∀ st, s.h.crc = .ext → P (k (statusOk st) (s.afterCall (.crc v c) st)))
    (hdef : s.h.crc = .default → P (k true s)) :
    P (crcCheck v c s k) := by
  unfold crcCheck
  split
  · exact callAdapter_all (fun h => hf _ ⟨‹_›, h⟩) (hn ‹_›) fun st _ => hext st ‹_›
  · exact hdef ‹_›
  · exact hf _ ‹_›

/-- The state at the Receive of an attempt that leaves `left` attempts (R26, R82). -/
def State.attempt (s : State) (left : Nat) : State :=
  (s.setPollCnt (BitVec.ofNat 5 (nPoll - left))).goto .readSample 3

/-- One attempt of the poll loop. -/
theorem pollLoop_succ (left : Nat) (k : Bool → State → Out) :
    pollLoop (left + 1) s k = busRecv lenMeas (s.attempt left) fun st s =>
      if statusOk st then k true s
      else delay tPollMs (s.goto .readSample 4) fun s => pollLoop left s k := rfl

/-- Everything the poll loop can do, for properties `J left` of the state before an attempt and `F left` of the
state after a failed one, `left` the attempts that remain. -/
theorem pollLoop_all {k : Bool → State → Out} {P : Out → Prop} {J F : Nat → State → Prop}
    (hf : ∀ l t r, J (l + 1) t ∨ F l t → FaultCause t r → P (.fault r))
    (hrn : ∀ l t a, t.h.addr = some a → t.answerAt 0 = .never → J (l + 1) t →
      P (.next ((t.attempt l).record ⟨.recv a lenMeas, .never⟩)))
    (hok : ∀ l t a buf, t.h.addr = some a → J (l + 1) t →
      P (k true ((t.attempt l).afterRecv a lenMeas 0 buf)))
    (hfail : ∀ l t a st buf, t.h.addr = some a → st ≠ 0 → J (l + 1) t →
      F l ((t.attempt l).afterRecv a lenMeas st buf))
    (hdn : ∀ l t, t.answerAt 0 = .never → F l t → P (.next ((t.goto .readSample 4).record ⟨.delay tPollMs, .never⟩)))
    (hdelay : ∀ l t st, F l t → J l ((t.goto .readSample 4).afterCall (.delay tPollMs) st))
    (hend : ∀ t, J 0 t → P (k false t)) :
    ∀ (left : Nat) (s : State), J left s → P (pollLoop left s k) := by
  intro left
  induction left with
  | zero => exact fun s h => hend _ h
  | succ left ih =>
    intro s h
    rw [pollLoop_succ]
    refine busRecv_all (fun r hc => hf left s r (.inl h) hc) (fun a ha hn => hrn left s a ha hn h) fun a st buf ha => ?_
    by_cases h0 : st = 0
    · subst h0
      simp only [statusOk_zero, if_true]
      exact hok left s a buf ha h
    · simp only [show statusOk st = false by simpa [statusOk] using h0]
      have h1 := hfail left s a st buf ha h0 h
      exact delay_all (fun r hc => hf left _ r (.inr h1) hc) (fun hn => hdn _ _ hn h1) fun st => ih _ (hdelay _ _ st h1)

end Primitives

end Sys2Proof.Machine
end

