-- ==== Sys2Proof/Laws/Exec.lean ====
section
/-! SUPPORT. Everything each meaning can answer, one rule per meaning: the states it can leave, and from what.
A property of every answer of exec is proved by these rules, without unfolding a meaning again. -/

namespace Sys2Proof.Machine

/-! ### Which meaning exec calls -/

/-- Every instruction is one of the ten operations, a reserved number, a wire command of the specified
configuration, or a clock-stretching command. -/
theorem exec_kinds (i : Instr) :
    (∃ sel, i = .init sel) ∨ i = .deInit ∨ (∃ r, i = .setSingleShot r) ∨
    (∃ v r, i = .setPeriodic v r) ∨ i = .setART ∨ i = .readSample ∨ i = .readStatus ∨
    i = .clearStatus ∨ (∃ e, i = .setHeater e) ∨ (∃ sel, i = .setAddressI2C sel) ∨
    ((∀ s, exec i s = reservedOperation s) ∧
      i ∈ [Instr.reservedOpA, .reservedOpB, .reservedOpC, .reservedOpD, .reservedOpE, .reservedOpF]) ∨
    (i.format = .cmd16 ∧ i.word ∈ emittable ∧ ∀ s, exec i s = issueCommand i.word s) ∨
    (i.format = .cmd16 ∧ (∀ s, exec i s = .refused .clockStretchConfiguration) ∧
      i ∈ [Instr.cmdSingleShotStretchLow, .cmdSingleShotStretchMedium, .cmdSingleShotStretchHigh]) := by
  cases i with
  | init sel => exact .inl ⟨sel, rfl⟩
  | deInit => exact .inr (.inl rfl)
  | setSingleShot r => exact .inr (.inr (.inl ⟨r, rfl⟩))
  | setPeriodic v r => exact .inr (.inr (.inr (.inl ⟨v, r, rfl⟩)))
  | setART => exact .inr (.inr (.inr (.inr (.inl rfl))))
  | readSample => exact .inr (.inr (.inr (.inr (.inr (.inl rfl)))))
  | readStatus => exact .inr (.inr (.inr (.inr (.inr (.inr (.inl rfl))))))
  | clearStatus => exact .inr (.inr (.inr (.inr (.inr (.inr (.inr (.inl rfl)))))))
  | setHeater e => exact .inr (.inr (.inr (.inr (.inr (.inr (.inr (.inr (.inl ⟨e, rfl⟩))))))))
  | setAddressI2C sel =>
    exact .inr (.inr (.inr (.inr (.inr (.inr (.inr (.inr (.inr (.inl ⟨sel, rfl⟩)))))))))
  | reservedOpA | reservedOpB | reservedOpC | reservedOpD | reservedOpE | reservedOpF =>
    exact .inr (.inr (.inr (.inr (.inr (.inr (.inr (.inr (.inr (.inr (.inl ⟨fun _ => rfl, by decide⟩))))))))))
  | cmdSingleShotStretchLow | cmdSingleShotStretchMedium | cmdSingleShotStretchHigh =>
    exact .inr (.inr (.inr (.inr (.inr (.inr (.inr (.inr (.inr (.inr (.inr (.inr
      ⟨rfl, fun _ => rfl, by decide⟩)))))))))))
  | _ =>
    exact .inr (.inr (.inr (.inr (.inr (.inr (.inr (.inr (.inr (.inr (.inr (.inl
      ⟨rfl, by decide, fun _ => rfl⟩)))))))))))

/-! ### One rule per meaning -/

section Meanings
variable {s : State} {P : Out → Prop}

/-- A Send that never returns: what `WriteCommand` then leaves. -/
def State.hungSend (s : State) (a : BusAddr) (cmd : Word) : State :=
  (s.setTx (hiByte cmd) (loByte cmd)).record ⟨.send a (hiByte cmd) (loByte cmd), .never⟩

/-- An answered Send of a code. -/
def State.sentCmd (s : State) (a : BusAddr) (cmd : Word) (st : Status) : State :=
  s.afterSend a (hiByte cmd) (loByte cmd) st

theorem startOperation_all {op : Operation} {k : State → Out}
    (hr : s.cfg.clockStretch = true → P (.refused .clockStretchConfiguration)) (hk : s.cfg.clockStretch = false → P (k (s.goto op 1))) :
    P (startOperation op s k) := by
  unfold startOperation inSpecifiedConfig
  split
  · exact hr ‹_›
  · rename_i h
    exact hk (by simpa using h)

theorem reservedOperation_all
    (hr : s.cfg.clockStretch = true → P (.refused .clockStretchConfiguration))
    (hk : s.cfg.clockStretch = false → P (.next (s.finish .invalidParam))) :
    P (reservedOperation s) := by
  unfold reservedOperation inSpecifiedConfig
  split
  · exact hr ‹_›
  · rename_i h
    exact hk (by simpa using h)

theorem issueCommand_all {cmd : Word}
    (hr : s.cfg.clockStretch = true → P (.refused .clockStretchConfiguration))
    (hf : ∀ r, FaultCause s r → P (.fault r))
    (hn : ∀ a, s.h.addr = some a → s.answerAt 0 = .never → P (.next ((s.setSeq .command).hungSend a cmd)))
    (hk : ∀ a st, s.h.addr = some a → P (.next (((s.setSeq .command).sentCmd a cmd st).setSeq .idle))) :
    P (issueCommand cmd s) := by
  unfold issueCommand inSpecifiedConfig
  split
  · exact hr ‹_›
  · exact writeCommand_all (fun r h => hf r (h.congr rfl rfl)) hn hk

/-- The four operations that are one Send and then a return. -/
theorem sendThenReturn_all {cmd : Word} {f : State → State} (hf : ∀ r, FaultCause s r → P (.fault r))
    (hn : ∀ a, s.h.addr = some a → s.answerAt 0 = .never → P (.next (s.hungSend a cmd)))
    (hfail : ∀ a st, s.h.addr = some a → st ≠ 0 → P (.next ((s.sentCmd a cmd st).finish .fail)))
    (hok : ∀ a, s.h.addr = some a → P (.next ((f (s.sentCmd a cmd 0)).finish .ok))) :
    P (writeCommand cmd s fun sent s =>
      if sent then returnResult .ok (f s) else returnResult .fail s) := by
  refine writeCommand_all (fun r h => hf r (h.congr rfl rfl)) hn fun a st ha => ?_
  split
  · rename_i h
    rw [statusOk_iff] at h
    subst h
    exact hok a ha
  · rename_i h
    exact hfail a st ha fun h0 => h ((statusOk_iff st).2 h0)

theorem setSingleShot_all {rep : Nat}
    (hr : s.cfg.clockStretch = true → P (.refused .clockStretchConfiguration))
    (hf : ∀ r, FaultCause s r → P (.fault r))
    (hinv : repOperand rep = none → P (.next (s.finish .invalidParam)))
    (hn : ∀ a, s.h.addr = some a →
      s.answerAt 0 = .never → P (.next ((s.goto .setSingleShot 2).hungSend a Code.stopPeriodic)))
    (hfail : ∀ a st, s.h.addr = some a → st ≠ 0 →
      P (.next ((s.sentCmd a Code.stopPeriodic st).finish .fail)))
    (hok : ∀ a r, s.h.addr = some a → repOperand rep = some r →
      P (.next ((((s.sentCmd a Code.stopPeriodic 0).setMode .singleShot).setRep r).finish .ok))) :
    P (execSetSingleShot rep s) := by
  refine startOperation_all hr fun _ => ?_
  split
  · exact hinv ‹_›
  · exact sendThenReturn_all (fun r h => hf r (h.congr rfl rfl)) hn hfail fun a ha => hok a _ ha ‹_›

theorem periodicCmd_operands {sp rp : Nat} {v : Speed} {r : Repeatability}
    (hv : speedOperand sp = some v) (hr : repOperand rp = some r) :
    ∃ w ∈ emittable, periodicCmd v r = some w := by
  have h1 : v = .mps05 ∨ v = .mps1 ∨ v = .mps2 ∨ v = .mps4 ∨ v = .mps10 := by
    unfold speedOperand at hv; split at hv <;> simp_all
  have h2 : r = .low ∨ r = .medium ∨ r = .high := by
    unfold repOperand at hr; split at hr <;> simp_all
  rcases h1 with rfl | rfl | rfl | rfl | rfl <;> rcases h2 with rfl | rfl | rfl <;>
    exact ⟨_, by decide, rfl⟩

theorem setPeriodic_all {sp rp : Nat}
    (hr : s.cfg.clockStretch = true → P (.refused .clockStretchConfiguration))
    (hf : ∀ r, FaultCause s r → P (.fault r))
    (hinv : (speedOperand sp = none ∨ repOperand rp = none) → P (.next (s.finish .invalidParam)))
    (hn : ∀ a w, s.h.addr = some a → w ∈ emittable →
      s.answerAt 0 = .never → P (.next ((s.goto .setPeriodic 2).hungSend a w)))
    (hfail : ∀ a w st, s.h.addr = some a → w ∈ emittable → st ≠ 0 →
      P (.next ((s.sentCmd a w st).finish .fail)))
    (hok : ∀ a w v r, s.h.addr = some a → w ∈ emittable → speedOperand sp = some v →
      repOperand rp = some r →
      P (.next (((((s.sentCmd a w 0).setMode .periodic).setSpeed v).setRep r).finish .ok))) :
    P (execSetPeriodic sp rp s) := by
  refine startOperation_all hr fun _ => ?_
  split
  · rename_i v r hv hrep
    obtain ⟨w, hw, hc⟩ := periodicCmd_operands hv hrep
    simp only [hc]
    exact sendThenReturn_all (fun r h => hf r (h.congr rfl rfl)) (fun a ha => hn a w ha hw) (fun a st ha => hfail a w st ha hw)
      fun a ha => hok a w v r ha hw hv hrep
  · rename_i h
    refine hinv ?_
    cases hv : speedOperand sp with
    | none => exact .inl rfl
    | some v =>
      cases hrep : repOperand rp with
      | none => exact .inr rfl
      | some r => exact absurd hrep (h v r hv)

theorem setART_all
    (hr : s.cfg.clockStretch = true → P (.refused .clockStretchConfiguration))
    (hf : ∀ r, FaultCause s r → P (.fault r))
    (hn : ∀ a, s.h.addr = some a → s.answerAt 0 = .never → P (.next ((s.goto .setART 1).hungSend a Code.art)))
    (hfail : ∀ a st, s.h.addr = some a → st ≠ 0 → P (.next ((s.sentCmd a Code.art st).finish .fail)))
    (hok : ∀ a, s.h.addr = some a →
      P (.next (((s.sentCmd a Code.art 0).setMode .art).finish .ok))) :
    P (execSetART s) :=
  startOperation_all hr fun _ => sendThenReturn_all (fun r h => hf r (h.congr rfl rfl)) hn hfail hok

theorem clearStatus_all
    (hr : s.cfg.clockStretch = true → P (.refused .clockStretchConfiguration))
    (hf : ∀ r, FaultCause s r → P (.fault r))
    (hn : ∀ a, s.h.addr = some a → s.answerAt 0 = .never → P (.next ((s.goto .clearStatus 1).hungSend a Code.clearStatus)))
    (hfail : ∀ a st, s.h.addr = some a → st ≠ 0 →
      P (.next ((s.sentCmd a Code.clearStatus st).finish .fail)))
    (hok : ∀ a, s.h.addr = some a → P (.next ((s.sentCmd a Code.clearStatus 0).finish .ok))) :
    P (execClearStatus s) :=
  startOperation_all hr fun _ => sendThenReturn_all (f := id) (fun r h => hf r (h.congr rfl rfl)) hn hfail hok

theorem setHeater_all {e : Nat}
    (hr : s.cfg.clockStretch = true → P (.refused .clockStretchConfiguration))
    (hf : ∀ r, FaultCause s r → P (.fault r))
    (hn : ∀ a w, s.h.addr = some a → w ∈ emittable → s.answerAt 0 = .never → P (.next ((s.goto .setHeater 2).hungSend a w)))
    (hfail : ∀ a w st, s.h.addr = some a → w ∈ emittable → st ≠ 0 →
      P (.next ((s.sentCmd a w st).finish .fail)))
    (hok : ∀ a w, s.h.addr = some a → w ∈ emittable → P (.next ((s.sentCmd a w 0).finish .ok))) :
    P (execSetHeater e s) := by
  have hw : heaterCmd e ∈ emittable := by unfold heaterCmd; split <;> decide
  exact startOperation_all hr fun _ => sendThenReturn_all (f := id) (fun r h => hf r (h.congr rfl rfl)) (fun a ha => hn a _ ha hw)
    (fun a st ha => hfail a _ st ha hw) fun a ha => hok a _ ha hw

theorem setAddressI2C_all {sel : Nat}
    (hr : s.cfg.clockStretch = true → P (.refused .clockStretchConfiguration))
    (hok : P (.next ((s.resolve sel).finish .ok))) : P (execSetAddressI2C sel s) :=
  startOperation_all hr fun _ => hok

theorem deInit_all
    (hr : s.cfg.clockStretch = true → P (.refused .clockStretchConfiguration))
    (hn : s.cfg.hasDeInit = true → s.answerAt 0 = .never → P (.next ((s.goto .deInit 2).record ⟨.platformDeInit, .never⟩)))
    (hfail : ∀ st, s.cfg.hasDeInit = true → st ≠ 0 →
      P (.next ((s.afterCall .platformDeInit st).finish .fail)))
    (hcall : s.cfg.hasDeInit = true → P (.next ((s.afterCall .platformDeInit 0).finish .ok)))
    (hnone : s.cfg.hasDeInit = false → P (.next (s.finish .ok))) : P (execDeInit s) := by
  refine startOperation_all hr fun _ => ?_
  split
  · rename_i h
    refine callAdapter_all (fun hb => absurd (h.symm.trans hb) (by decide)) (hn h) fun st buf => ?_
    by_cases h0 : st = 0
    · subst h0; exact hcall h
    · have : statusOk st = false := by simpa [statusOk] using h0
      simp only [this]
      exact hfail st h h0
  · rename_i h
    exact hnone (by simpa using h)

/-- The state Init has made before its bus traffic: address resolved, CRC check installed. -/
def State.initPrepared (s : State) (sel : Nat) : State := (s.resolve sel).installCrc

/-- The same with the forced baseline. -/
def State.baseline (s : State) : State := (s.setMode .singleShot).setRep .low

theorem initBaseline_all (hf : ∀ r, FaultCause s.baseline r → P (.fault r))
    (hn : ∀ a, s.h.addr = some a →
      s.answerAt 0 = .never → P (.next ((s.baseline.goto .init 6).hungSend a Code.softReset)))
    (hfail : ∀ a st, s.h.addr = some a → st ≠ 0 →
      P (.next ((s.baseline.sentCmd a Code.softReset st).finish .fail)))
    (hnd : ∀ a, s.h.addr = some a →
      (s.baseline.sentCmd a Code.softReset 0).answerAt 0 = .never → P (.next (((s.baseline.sentCmd a Code.softReset 0).goto .init 7).record ⟨.delay tResetMs, .never⟩)))
    (hok : ∀ a st, s.h.addr = some a →
      P (.next (((s.baseline.sentCmd a Code.softReset 0).afterCall (.delay tResetMs) st).finish .ok))) :
    P (initBaseline s) := by
  refine writeCommand_all (fun r h => hf r (h.congr rfl rfl)) hn fun a st ha => ?_
  split
  · rename_i h
    rw [statusOk_iff] at h
    subst h
    exact delay_all (fun r h => hf r (h.congr rfl rfl)) (hnd a ha) fun st => hok a st ha
  · rename_i h
    exact hfail a st ha fun h0 => h ((statusOk_iff st).2 h0)

theorem init_all {sel : Nat}
    (hr : s.cfg.clockStretch = true → P (.refused .clockStretchConfiguration))
    (hinv : requiredBound s.cfg = false → P (.next ((s.resolve sel).finish .invalidParam)))
    (hpn : s.cfg.hasInit = true →
      s.answerAt 0 = .never → P (.next (((s.initPrepared sel).goto .init 4).record ⟨.platformInit, .never⟩)))
    (hpfail : ∀ st, s.cfg.hasInit = true → st ≠ 0 →
      P (.next (((s.initPrepared sel).afterCall .platformInit st).finish .fail)))
    (hbase : ∀ u, requiredBound s.cfg = true →
      (u = (s.initPrepared sel).setSeq u.seq ∧ s.cfg.hasInit = false ∨
        u = (((s.initPrepared sel).afterCall .platformInit 0).setSeq u.seq) ∧ s.cfg.hasInit = true) →
      P (initBaseline u)) : P (execInit sel s) := by
  refine startOperation_all hr fun _ => ?_
  cases hq : requiredBound s.cfg with
  | false =>
    have hq' : requiredBound ((s.goto .init 1).resolve sel).cfg = false := hq
    simp only [hq']
    exact hinv hq
  | true =>
    have hq' : requiredBound ((s.goto .init 1).resolve sel).cfg = true := hq
    have hcfg : ((s.initPrepared sel).setSeq (.running .init 1)).cfg.hasInit = s.cfg.hasInit := by
      simp [State.initPrepared]
    have hprep : ((s.goto .init 1).resolve sel).installCrc =
        (s.initPrepared sel).setSeq (.running .init 1) := by
      unfold State.initPrepared State.installCrc
      split <;> simp_all [State.setSeq, State.setCrc, State.goto, State.resolve]
    simp only [hq', hprep, hcfg, if_true]
    cases h : s.cfg.hasInit with
    | false => exact hbase ((s.initPrepared sel).setSeq (.running .init 1)) hq (.inl ⟨rfl, h⟩)
    | true =>
      have hb : ∀ {Q : Prop}, capabilityBound s.cfg .platformInit = false → Q := fun hb =>
        absurd (h.symm.trans hb) (by decide)
      refine callAdapter_all (fun h' => hb (by simpa [State.initPrepared, Call.capability] using h')) (fun h' => hpn h (by
        simpa [State.initPrepared] using h')) fun st buf => ?_
      by_cases h0 : st = 0
      · subst h0
        exact hbase (((s.initPrepared sel).afterCall .platformInit 0).setSeq (.running .init 4)) hq
          (.inr ⟨rfl, h⟩)
      · simp only [show statusOk st = false by simpa [statusOk] using h0]
        exact hpfail st h h0

/-- The state of ReadStatus after its command was sent with success. -/
def State.statusAsked (s : State) (a : BusAddr) : State :=
  ((s.goto .readStatus 1).sentCmd a Code.readStatus 0).goto .readStatus 2

theorem readStatus_all
    (hr : s.cfg.clockStretch = true → P (.refused .clockStretchConfiguration))
    (hf : ∀ r, FaultCause s r → P (.fault r))
    (hn : ∀ a, s.h.addr = some a → s.answerAt 0 = .never → P (.next ((s.goto .readStatus 1).hungSend a Code.readStatus)))
    (hfail : ∀ a st, s.h.addr = some a → st ≠ 0 →
      P (.next ((s.sentCmd a Code.readStatus st).finish .fail)))
    (hrn : ∀ a, s.h.addr = some a →
      (s.statusAsked a).answerAt 0 = .never → P (.next ((s.statusAsked a).record ⟨.recv a lenStat, .never⟩)))
    (hrfail : ∀ a st buf, s.h.addr = some a → st ≠ 0 →
      P (.next (((s.statusAsked a).afterRecv a lenStat st buf).finish .fail)))
    (hcn : ∀ a buf v c, s.h.addr = some a → s.h.crc = .ext →
      ((((s.statusAsked a).afterRecv a lenStat 0 buf).setStValue v).goto .readStatus 5).answerAt 0 = .never →
      P (.next (((((s.statusAsked a).afterRecv a lenStat 0 buf).setStValue v).goto
        .readStatus 5).record ⟨.crc v c, .never⟩)))
    (hext : ∀ a buf v c st, s.h.addr = some a → s.h.crc = .ext →
      P (.next ((((((s.statusAsked a).afterRecv a lenStat 0 buf).setStValue v).goto .readStatus 5).afterCall
        (.crc v c) st).finish (if st = 0 then .ok else .crcError))))
    (hdef : ∀ a buf v, s.h.addr = some a → s.h.crc = .default →
      P (.next (((((s.statusAsked a).afterRecv a lenStat 0 buf).setStValue v).goto
        .readStatus 5).finish .ok))) :
    P (execReadStatus s) := by
  refine startOperation_all hr fun _ => writeCommand_all (fun r h => hf r (h.congr rfl rfl)) hn fun a st ha => ?_
  by_cases h0 : st = 0
  · subst h0
    simp only [statusOk_zero, if_true]
    refine busRecv_all (fun r h => hf r (h.congr rfl rfl)) (fun a' ha' hn' => ?_) fun a' st buf ha' => ?_
    · obtain rfl : a' = a := Option.some.inj (ha'.symm.trans ha)
      exact hrn _ ha hn'
    · obtain rfl : a' = a := Option.some.inj (ha'.symm.trans ha)
      by_cases h1 : st = 0
      · subst h1
        simp only [statusOk_zero, if_true]
        refine crcCheck_all (fun r h => hf r (h.congr (by simp [State.afterRecv, State.afterSend])
          (by simp [State.afterRecv, State.afterSend]))) (fun h hn => hcn a' buf _ _ ha h hn)
          (fun st h => ?_) (hdef a' buf _ ha)
        have := hext a' buf ((s.statusAsked a').afterRecv a' lenStat 0 buf).rxbuf.word0
          ((s.statusAsked a').afterRecv a' lenStat 0 buf).rxbuf.b2 st ha h
        by_cases h2 : st = 0
        · subst h2; exact this
        · simp only [show statusOk st = false by simpa [statusOk] using h2]
          simp only [h2, if_false] at this
          exact this
      · simp only [show statusOk st = false by simpa [statusOk] using h1]
        exact hrfail _ _ _ ha h1
  · simp only [show statusOk st = false by simpa [statusOk] using h0]
    exact hfail _ _ ha h0

/-- The state at the first CRC check of ReadSample: both raw counts written. -/
def State.decoded (s : State) : State := (s.setRaw s.rxbuf.word0 s.rxbuf.word3).goto .readSample 7

/-- The state at the second CRC check of ReadSample. -/
def State.tChecked (s : State) : State :=
  (s.decoded.afterCall (.crc s.rxbuf.word0 s.rxbuf.b2) 0).goto .readSample 8

/-- The tail of ReadSample, from a state `s` with the frame in `RXBUF`. -/
theorem sampleTail_all (hf : ∀ r, FaultCause s r → P (.fault r))
    (htn : s.h.crc = .ext → s.answerAt 0 = .never → P (.next (s.decoded.record ⟨.crc s.rxbuf.word0 s.rxbuf.b2, .never⟩)))
    (htfail : ∀ st, s.h.crc = .ext → st ≠ 0 →
      P (.next ((s.decoded.afterCall (.crc s.rxbuf.word0 s.rxbuf.b2) st).finish .crcError)))
    (hhn : s.h.crc = .ext → s.tChecked.answerAt 0 = .never → P (.next (s.tChecked.record ⟨.crc s.rxbuf.word3 s.rxbuf.b5, .never⟩)))
    (hhfail : ∀ st, s.h.crc = .ext → st ≠ 0 →
      P (.next ((s.tChecked.afterCall (.crc s.rxbuf.word3 s.rxbuf.b5) st).finish .crcError)))
    (hext : s.h.crc = .ext →
      P (.next (((s.tChecked.afterCall (.crc s.rxbuf.word3 s.rxbuf.b5) 0).convert s.rxbuf.word0
        s.rxbuf.word3).finish .ok)))
    (hdef : s.h.crc = .default →
      P (.next (((s.decoded.goto .readSample 8).convert s.rxbuf.word0 s.rxbuf.word3).finish .ok))) :
    P (sampleTail s) := by
  have main : P (crcCheck s.rxbuf.word0 s.rxbuf.b2 s.decoded fun tOk u =>
      if tOk then
        crcCheck s.rxbuf.word3 u.rxbuf.b5 (u.goto .readSample 8) fun hOk u =>
        if hOk then returnResult .ok (u.convert s.rxbuf.word0 s.rxbuf.word3)
        else returnResult .crcError u
      else returnResult .crcError u) := by
    refine crcCheck_all (fun r h => hf r (h.congr rfl rfl)) htn (fun st h => ?_) fun h => ?_
    · by_cases h0 : st = 0
      · subst h0
        simp only [statusOk_zero, if_true]
        refine crcCheck_all (fun r h => hf r (h.congr rfl rfl)) (fun _ => hhn h) (fun st _ => ?_) fun h' => ?_
        · by_cases h1 : st = 0
          · subst h1; exact hext h
          · simp only [show statusOk st = false by simpa [statusOk] using h1]
            exact hhfail _ h h1
        · exact absurd (h.symm.trans h') (by decide)
      · simp only [show statusOk st = false by simpa [statusOk] using h0]
        exact htfail _ h h0
    · simp only [if_true]
      refine crcCheck_all (fun r h => hf r (h.congr rfl rfl)) (fun h' => ?_) (fun st h' => ?_) fun _ => hdef h
      · exact absurd (h'.symm.trans h) (by decide)
      · exact absurd (h'.symm.trans h) (by decide)
  exact main

/-- The state of the Periodic and ART path after its command was sent with success. -/
def State.fetchAsked (s : State) (a : BusAddr) : State :=
  ((s.goto .readSample 2).sentCmd a Code.fetchData 0).goto .readSample 3

theorem fetchPath_all (hf : ∀ r, FaultCause s r → P (.fault r))
    (hn : ∀ a, s.h.addr = some a → s.answerAt 0 = .never → P (.next ((s.goto .readSample 2).hungSend a Code.fetchData)))
    (hfail : ∀ a st, s.h.addr = some a → st ≠ 0 →
      P (.next ((s.sentCmd a Code.fetchData st).finish .fail)))
    (hrn : ∀ a, s.h.addr = some a → (s.fetchAsked a).answerAt 0 = .never → P (.next ((s.fetchAsked a).record ⟨.recv a lenMeas, .never⟩)))
    (hnack : ∀ a st buf, s.h.addr = some a → st ≠ 0 → st = s.cfg.nackCode →
      P (.next (((s.fetchAsked a).afterRecv a lenMeas st buf).finish .noData)))
    (hrfail : ∀ a st buf, s.h.addr = some a → st ≠ 0 → st ≠ s.cfg.nackCode →
      P (.next (((s.fetchAsked a).afterRecv a lenMeas st buf).finish .fail)))
    (htail : ∀ a buf, s.h.addr = some a →
      P (sampleTail ((s.fetchAsked a).afterRecv a lenMeas 0 buf))) :
    P (fetchPath s) := by
  refine writeCommand_all (fun r h => hf r (h.congr rfl rfl)) hn fun a st ha => ?_
  by_cases h0 : st = 0
  · subst h0
    simp only [statusOk_zero, if_true]
    refine busRecv_all (fun r h => hf r (h.congr rfl rfl)) (fun a' ha' hn' => ?_) fun a' st buf ha' => ?_
    · obtain rfl : a' = a := Option.some.inj (ha'.symm.trans ha)
      exact hrn _ ha hn'
    · obtain rfl : a' = a := Option.some.inj (ha'.symm.trans ha)
      by_cases h1 : st = 0
      · subst h1
        exact htail _ _ ha
      · by_cases h2 : st = s.cfg.nackCode
        · have hc : classifyRecv s.cfg st = .recvNack := by
            unfold classifyRecv; rw [if_neg h1, if_pos h2]
          show P (match classifyRecv s.cfg st with | .recvOk => _ | .recvNack => _ | .recvFail => _)
          rw [hc]
          exact hnack _ _ _ ha h1 h2
        · have hc : classifyRecv s.cfg st = .recvFail := by
            unfold classifyRecv; rw [if_neg h1, if_neg h2]
          show P (match classifyRecv s.cfg st with | .recvOk => _ | .recvNack => _ | .recvFail => _)
          rw [hc]
          exact hrfail _ _ _ ha h1 h2
  · simp only [show statusOk st = false by simpa [statusOk] using h0]
    exact hfail _ _ ha h0

/-- The SingleShot path, for properties `J left` and `F left` of the state before and after a failed attempt of
the poll loop. -/
theorem singleShotPath_all {J F : Nat → State → Prop} (hf : ∀ r, FaultCause s r → P (.fault r))
    (hfp : ∀ l t r, J (l + 1) t ∨ F l t → FaultCause t r → P (.fault r))
    (hn : ∀ a w, s.h.addr = some a → w ∈ emittable →
      s.answerAt 0 = .never → P (.next ((s.goto .readSample 2).hungSend a w)))
    (hfail : ∀ a w st, s.h.addr = some a → w ∈ emittable → st ≠ 0 →
      P (.next ((s.sentCmd a w st).finish .fail)))
    (hsent : ∀ a w, s.h.addr = some a → w ∈ emittable →
      J nPoll ((s.goto .readSample 2).sentCmd a w 0))
    (hrn : ∀ l t a, t.h.addr = some a → t.answerAt 0 = .never → J (l + 1) t →
      P (.next ((t.attempt l).record ⟨.recv a lenMeas, .never⟩)))
    (hguard : ∀ l t a buf, t.h.addr = some a → J (l + 1) t →
      P (.next (((t.attempt l).afterRecv a lenMeas 0 buf).finish .fail)))
    (htail : ∀ l t a buf, t.h.addr = some a → J (l + 1) t →
      P (sampleTail ((t.attempt l).afterRecv a lenMeas 0 buf)))
    (hrfail : ∀ l t a st buf, t.h.addr = some a → st ≠ 0 → J (l + 1) t →
      F l ((t.attempt l).afterRecv a lenMeas st buf))
    (hdn : ∀ l t, t.answerAt 0 = .never → F l t → P (.next ((t.goto .readSample 4).record ⟨.delay tPollMs, .never⟩)))
    (hdelay : ∀ l t st, F l t → J l ((t.goto .readSample 4).afterCall (.delay tPollMs) st))
    (hend : ∀ t, J 0 t → P (.next (t.finish .fail))) :
    P (singleShotPath s) := by
  unfold singleShotPath
  split
  · exact hf _ ‹_›
  · rename_i r hrep
    split
    · rename_i hw
      refine hf .reservedEncoding ?_
      cases r <;> simp [singleShotCmd] at hw
      exact hrep
    · rename_i w hw
      have hmem : w ∈ emittable := by
        cases r <;> simp [singleShotCmd] at hw <;> subst hw <;> decide
      refine writeCommand_all (fun r h => hf r (h.congr rfl rfl)) (fun a ha => hn a w ha hmem) fun a st ha => ?_
      by_cases h0 : st = 0
      · subst h0
        simp only [statusOk_zero, if_true]
        refine pollLoop_all hfp hrn (fun l t a buf ha h => ?_) hrfail hdn hdelay hend nPoll _
          (hsent a w ha hmem)
        simp only [if_true]
        split
        · exact hguard l t a buf ha h
        · exact htail l t a buf ha h
      · simp only [show statusOk st = false by simpa [statusOk] using h0]
        exact hfail a w st ha hmem h0

theorem readSample_all
    (hr : s.cfg.clockStretch = true → P (.refused .clockStretchConfiguration))
    (hf : ∀ r, FaultCause s r → P (.fault r))
    (hinv : s.h.mode = some .reserved → P (.next (s.finish .invalidParam)))
    (hsingle : s.h.mode = some .singleShot → P (singleShotPath (s.goto .readSample 1)))
    (hfetch : s.h.mode = some .periodic ∨ s.h.mode = some .art → P (fetchPath (s.goto .readSample 1))) :
    P (execReadSample s) := by
  refine startOperation_all hr fun _ => ?_
  split
  · exact hf _ ‹_›
  · exact hsingle ‹_›
  · exact hfetch (.inl ‹_›)
  · exact hfetch (.inr ‹_›)
  · exact hinv ‹_›

end Meanings

end Sys2Proof.Machine
end

