-- ==== Sys2Proof/Laws/Frame.lean ====
section
/-! SUPPORT. A property that the updates of an operation keep is kept by the operation: one lemma per meaning,
and one for every instruction.  A frame, an invariant or a progress claim is then a few small goals, one per
update. -/

namespace Sys2Proof.Machine

/-- `Q` holds of the next state, if there is one; a fault `r` is allowed only if `B (some r)` holds, a refusal only
if `B none` does. -/
def AllNext (Q : State → Prop) (B : Option Fault → Prop) : Out → Prop
  | .next t => Q t
  | .fault r => B (some r)
  | .refused _ => B none

theorem AllNext.of_eq {Q : State → Prop} {B : Option Fault → Prop} {o : Out} {t : State} (h : AllNext Q B o)
    (e : o = .next t) : Q t := by
  subst e
  exact h

/-- Only an allowed fault is met. -/
theorem AllNext.fault_of_eq {Q : State → Prop} {B : Option Fault → Prop} {o : Out} {r : Fault}
    (h : AllNext Q B o) (e : o = .fault r) : B (some r) := by
  subst e
  exact h

theorem AllNext.mono {Q R : State → Prop} {B : Option Fault → Prop} {o : Out} (h : AllNext Q B o)
    (hi : ∀ t, Q t → R t) : AllNext R B o := by
  cases o with
  | next t => exact hi t h
  | fault _ => exact h
  | refused _ => exact h

/-- If no stop is allowed there is a next state. -/
theorem AllNext.exists {Q : State → Prop} {o : Out} (h : AllNext Q (fun _ => False) o) :
    ∃ t, o = .next t ∧ Q t := by
  cases o with
  | next t => exact ⟨t, rfl, h⟩
  | fault _ => exact h.elim
  | refused _ => exact h.elim

/-- The calls a state can make: to its own address, of a code of the tables, of the lengths and delays the
engine uses. -/
def Call.madeFrom (t : State) : Call → Prop
  | .send a b0 b1 => t.h.addr = some a ∧ ∃ w ∈ emittable, b0 = hiByte w ∧ b1 = loByte w
  | .recv a n => t.h.addr = some a ∧ (n = lenMeas ∨ n = lenStat)
  | .delay ms => ms = tPollMs ∨ ms = tResetMs
  | .platformInit | .platformDeInit | .crc _ _ => True

/-- A property `J` that holds while an operation runs, a property `Q` of where it ends, and the stops `B` allows: `J` is not disturbed by the sequencer, the scratch registers and a call that returned; `Q` follows
from `J` at a return, at the end of a bare command, and at a call that never returned. -/
structure Tracks (J Q : State → Prop) (B : Option Fault → Prop) : Prop where
  seq : ∀ t q, J t → J (t.setSeq q)
  tx : ∀ t a b, J t → J (t.setTx a b)
  rx : ∀ t b, J t → J (t.setRx b)
  poll : ∀ t n, n ≤ nPoll → J t → J (t.setPollCnt (BitVec.ofNat 5 n))
  log : ∀ t e, e.call.madeFrom t → e.reply ≠ .never → J t → J (t.record e)
  hang : ∀ t c, c.madeFrom t → t.seq ≠ .idle → t.answerAt 0 = .never → J t → Q (t.record ⟨c, .never⟩)
  fin : ∀ t r, J t → Q (t.finish r)
  cmd : ∀ t, J t → Q (t.setSeq .idle)
  conf : ∀ t, J t → t.cfg.clockStretch = true → B none
  stop : ∀ t r, J t → FaultCause t r → B (some r)

/-- One property for both, which every update keeps, whatever stops. -/
theorem Tracks.same {J : State → Prop} (seq : ∀ t q, J t → J (t.setSeq q))
    (tx : ∀ t a b, J t → J (t.setTx a b)) (rx : ∀ t b, J t → J (t.setRx b))
    (poll : ∀ t n, n ≤ nPoll → J t → J (t.setPollCnt (BitVec.ofNat 5 n)))
    (res : ∀ t r, J t → J (t.setRes r)) (log : ∀ t e, e.call.madeFrom t → J t → J (t.record e)) :
    Tracks J J (fun _ => True) :=
  ⟨seq, tx, rx, poll, fun t e hm _ h => log t e hm h, fun t c hm _ _ h => log t ⟨c, .never⟩ hm h,
    fun t r h => seq _ .idle (res t r h), fun t h => seq t .idle h, fun _ _ _ => trivial,
    fun _ _ _ _ => trivial⟩

namespace Tracks
variable {J Q : State → Prop} {B : Option Fault → Prop} {s t : State}

theorem goto (hJ : Tracks J Q B) {op : Operation} {l : Nat} (h : J t) : J (t.goto op l) := hJ.seq _ _ h

theorem sent (hJ : Tracks J Q B) {a : BusAddr} {w : Word} {st : Status} (ha : t.h.addr = some a)
    (hw : w ∈ emittable) (h : J t) : J (t.sentCmd a w st) :=
  hJ.log _ _ ⟨ha, w, hw, rfl, rfl⟩ (by simp) (hJ.tx _ _ _ h)

theorem hung (hJ : Tracks J Q B) {a : BusAddr} {w : Word} (ha : t.h.addr = some a) (hw : w ∈ emittable)
    (hs : t.seq ≠ .idle) (hn : t.answerAt 0 = .never) (h : J t) : Q (t.hungSend a w) :=
  hJ.hang _ _ ⟨ha, w, hw, rfl, rfl⟩ hs hn (hJ.tx _ _ _ h)

theorem recv (hJ : Tracks J Q B) {a : BusAddr} {n : Nat} {st : Status} {buf : RxBuf}
    (ha : t.h.addr = some a) (hn : n = lenMeas ∨ n = lenStat) (h : J t) : J (t.afterRecv a n st buf) :=
  hJ.rx _ _ (hJ.log _ _ ⟨ha, hn⟩ (by simp) h)

theorem called (hJ : Tracks J Q B) {c : Call} {st : Status} (hc : c.madeFrom t) (h : J t) :
    J (t.afterCall c st) :=
  hJ.log _ _ hc (by simp) h

theorem sampleTail (hJ : Tracks J Q B) (hraw : ∀ t a b, J t → J (t.setRaw a b))
    (hder : ∀ t a b c, J t → J (t.setDerived a b c)) (h : J s) : AllNext Q B (sampleTail s) := by
  have h1 : J s.decoded := hJ.goto (hraw _ _ _ h)
  have h2 : J s.tChecked := hJ.goto (hJ.called trivial h1)
  exact sampleTail_all (P := AllNext Q B) (fun _ hc => hJ.stop _ _ h hc)
    (fun _ hn => hJ.hang _ _ trivial (by simp [State.decoded]) hn h1)
    (fun _ _ _ => hJ.fin _ _ (hJ.called trivial h1))
    (fun _ hn => hJ.hang _ _ trivial (by simp [State.tChecked]) hn h2)
    (fun _ _ _ => hJ.fin _ _ (hJ.called trivial h2))
    (fun _ => hJ.fin _ _ (hder _ _ _ _ (hJ.called trivial h2)))
    (fun _ => hJ.fin _ _ (hder _ _ _ _ (hJ.goto h1)))

theorem readSample (hJ : Tracks J Q B) (hraw : ∀ t a b, J t → J (t.setRaw a b))
    (hder : ∀ t a b c, J t → J (t.setDerived a b c)) (h : J s) :
    AllNext Q B (exec .readSample s) := by
  refine readSample_all (P := AllNext Q B) (fun hc => hJ.conf _ h hc) (fun _ hc => hJ.stop _ _ h hc)
    (fun _ => hJ.fin _ _ h) (fun _ => ?_) (fun _ => ?_)
  · have hat : ∀ l t, J t → J (t.attempt l) := fun l t h => hJ.goto (hJ.poll _ _ (Nat.sub_le _ _) h)
    exact singleShotPath_all (P := AllNext Q B) (J := fun _ => J) (F := fun _ => J)
      (fun _ hc => hJ.stop _ _ h (hc.congr rfl rfl))
      (fun _ _ _ h hc => hJ.stop _ _ (h.elim id id) hc)
      (fun _ _ ha hw hn => hJ.hung ha hw (by simp) hn (hJ.goto (hJ.goto h)))
      (fun _ _ _ ha hw _ => hJ.fin _ _ (hJ.sent ha hw (hJ.goto h)))
      (fun _ _ ha hw => hJ.sent ha hw (hJ.goto (hJ.goto h)))
      (fun l t _ ha hn h => hJ.hang _ _ ⟨ha, .inl rfl⟩ (by simp [State.attempt]) hn (hat l t h))
      (fun l t _ _ ha h => hJ.fin _ _ (hJ.recv ha (.inl rfl) (hat l t h)))
      (fun l t _ _ ha h => hJ.sampleTail hraw hder (hJ.recv ha (.inl rfl) (hat l t h)))
      (fun l t _ _ _ ha _ h => hJ.recv ha (.inl rfl) (hat l t h))
      (fun _ _ hn h => hJ.hang _ _ (.inl rfl) (by simp) hn (hJ.goto h))
      (fun _ _ _ h => hJ.called (.inl rfl) (hJ.goto h)) (fun _ h => hJ.fin _ _ h)
  · have h1 : ∀ a, s.h.addr = some a → J ((s.goto .readSample 1).fetchAsked a) := fun a ha =>
      hJ.goto (hJ.sent ha (by decide) (hJ.goto (hJ.goto h)))
    exact fetchPath_all (P := AllNext Q B) (fun _ hc => hJ.stop _ _ h (hc.congr rfl rfl))
      (fun _ ha hn => hJ.hung ha (by decide) (by simp) hn (hJ.goto (hJ.goto h)))
      (fun _ _ ha _ => hJ.fin _ _ (hJ.sent ha (by decide) (hJ.goto h)))
      (fun a ha hn => hJ.hang _ _ ⟨ha, .inl rfl⟩ (by simp [State.fetchAsked]) hn (h1 a ha))
      (fun a _ _ ha _ _ => hJ.fin _ _ (hJ.recv ha (.inl rfl) (h1 a ha)))
      (fun a _ _ ha _ _ => hJ.fin _ _ (hJ.recv ha (.inl rfl) (h1 a ha)))
      (fun a _ ha => hJ.sampleTail hraw hder (hJ.recv ha (.inl rfl) (h1 a ha)))

theorem readStatus (hJ : Tracks J Q B) (hv : ∀ t v, J t → J (t.setStValue v)) (h : J s) :
    AllNext Q B (exec .readStatus s) := by
  have h1 : ∀ a, s.h.addr = some a → J (s.statusAsked a) := fun a ha =>
    hJ.goto (hJ.sent ha (by decide) (hJ.goto h))
  have h2 : ∀ a buf v, s.h.addr = some a →
      J ((((s.statusAsked a).afterRecv a lenStat 0 buf).setStValue v).goto .readStatus 5) :=
    fun a _ _ ha => hJ.goto (hv _ _ (hJ.recv ha (.inr rfl) (h1 a ha)))
  exact readStatus_all (P := AllNext Q B) (fun hc => hJ.conf _ h hc) (fun _ hc => hJ.stop _ _ h hc)
    (fun _ ha hn => hJ.hung ha (by decide) (by simp) hn (hJ.goto h))
    (fun _ _ ha _ => hJ.fin _ _ (hJ.sent ha (by decide) h))
    (fun a ha hn => hJ.hang _ _ ⟨ha, .inr rfl⟩ (by simp [State.statusAsked]) hn (h1 a ha))
    (fun a _ _ ha _ => hJ.fin _ _ (hJ.recv ha (.inr rfl) (h1 a ha)))
    (fun a buf v _ ha _ hn => hJ.hang _ _ trivial (by simp) hn (h2 a buf v ha))
    (fun a buf v _ _ ha _ => hJ.fin _ _ (hJ.called trivial (h2 a buf v ha)))
    (fun a buf v ha _ => hJ.fin _ _ (h2 a buf v ha))

theorem setSingleShot (hJ : Tracks J Q B) {r : Nat}
    (hm : ∀ t r', repOperand r = some r' → J t → J ((t.setMode .singleShot).setRep r')) (h : J s) :
    AllNext Q B (exec (.setSingleShot r) s) :=
  setSingleShot_all (P := AllNext Q B) (fun hc => hJ.conf _ h hc)
    (fun _ hc => hJ.stop _ _ h hc) (fun _ => hJ.fin _ _ h)
    (fun _ ha hn => hJ.hung ha (by decide) (by simp) hn (hJ.goto h))
    (fun _ _ ha _ => hJ.fin _ _ (hJ.sent ha (by decide) h))
    (fun _ _ ha hr => hJ.fin _ _ (hm _ _ hr (hJ.sent ha (by decide) h)))

theorem setPeriodic (hJ : Tracks J Q B) {v r : Nat}
    (hm : ∀ t v' r', speedOperand v = some v' → repOperand r = some r' → J t →
      J (((t.setMode .periodic).setSpeed v').setRep r')) (h : J s) :
    AllNext Q B (exec (.setPeriodic v r) s) :=
  setPeriodic_all (P := AllNext Q B) (fun hc => hJ.conf _ h hc)
    (fun _ hc => hJ.stop _ _ h hc) (fun _ => hJ.fin _ _ h)
    (fun _ _ ha hw hn => hJ.hung ha hw (by simp) hn (hJ.goto h))
    (fun _ _ _ ha hw _ => hJ.fin _ _ (hJ.sent ha hw h))
    (fun _ _ _ _ ha hw hv hr => hJ.fin _ _ (hm _ _ _ hv hr (hJ.sent ha hw h)))

theorem setART (hJ : Tracks J Q B) (hm : ∀ t, J t → J (t.setMode .art)) (h : J s) :
    AllNext Q B (exec .setART s) :=
  setART_all (P := AllNext Q B) (fun hc => hJ.conf _ h hc)
    (fun _ hc => hJ.stop _ _ h hc)
    (fun _ ha hn => hJ.hung ha (by decide) (by simp) hn (hJ.goto h))
    (fun _ _ ha _ => hJ.fin _ _ (hJ.sent ha (by decide) h))
    (fun _ ha => hJ.fin _ _ (hm _ (hJ.sent ha (by decide) h)))

theorem clearStatus (hJ : Tracks J Q B) (h : J s) : AllNext Q B (exec .clearStatus s) :=
  clearStatus_all (P := AllNext Q B) (fun hc => hJ.conf _ h hc)
    (fun _ hc => hJ.stop _ _ h hc)
    (fun _ ha hn => hJ.hung ha (by decide) (by simp) hn (hJ.goto h))
    (fun _ _ ha _ => hJ.fin _ _ (hJ.sent ha (by decide) h))
    (fun _ ha => hJ.fin _ _ (hJ.sent ha (by decide) h))

theorem setHeater (hJ : Tracks J Q B) {e : Nat} (h : J s) : AllNext Q B (exec (.setHeater e) s) :=
  setHeater_all (P := AllNext Q B) (fun hc => hJ.conf _ h hc)
    (fun _ hc => hJ.stop _ _ h hc)
    (fun _ _ ha hw hn => hJ.hung ha hw (by simp) hn (hJ.goto h))
    (fun _ _ _ ha hw _ => hJ.fin _ _ (hJ.sent ha hw h)) (fun _ _ ha hw => hJ.fin _ _ (hJ.sent ha hw h))

theorem setAddressI2C (hJ : Tracks J Q B) {sel : Nat} (hm : ∀ t, J t → J (t.resolve sel)) (h : J s) :
    AllNext Q B (exec (.setAddressI2C sel) s) :=
  setAddressI2C_all (P := AllNext Q B) (fun hc => hJ.conf _ h hc) (hJ.fin _ _ (hm _ h))

theorem deInit (hJ : Tracks J Q B) (h : J s) : AllNext Q B (exec .deInit s) :=
  deInit_all (P := AllNext Q B) (fun hc => hJ.conf _ h hc)
    (fun _ hn => hJ.hang _ _ trivial (by simp) hn (hJ.goto h)) (fun _ _ _ => hJ.fin _ _ (hJ.called trivial h))
    (fun _ => hJ.fin _ _ (hJ.called trivial h)) (fun _ => hJ.fin _ _ h)

theorem init (hJ : Tracks J Q B) {sel : Nat} (hm : ∀ t, J t → J (t.resolve sel))
    (hc : ∀ t, J t → J t.installCrc) (hb : ∀ t, J t → J ((t.setMode .singleShot).setRep .low))
    (h : J s) : AllNext Q B (exec (.init sel) s) := by
  have h1 : J (s.initPrepared sel) := hc _ (hm _ h)
  refine init_all (P := AllNext Q B) (fun hc => hJ.conf _ h hc) (fun _ => hJ.fin _ _ (hm _ h))
    (fun _ hn => hJ.hang _ _ trivial (by simp) (by simpa [State.initPrepared] using hn) (hJ.goto h1)) (fun _ _ _ => hJ.fin _ _ (hJ.called trivial h1))
    fun u _ hu => ?_
  have h2 : J u := by
    rcases hu with ⟨hu, _⟩ | ⟨hu, _⟩ <;> rw [hu]
    · exact hJ.seq _ _ h1
    · exact hJ.seq _ _ (hJ.called trivial h1)
  have h3 : J u.baseline := hb _ h2
  exact initBaseline_all (P := AllNext Q B) (fun _ hc => hJ.stop _ _ h3 hc)
    (fun _ ha hn => hJ.hung ha (by decide) (by simp) hn (hJ.goto h3))
    (fun _ _ ha _ => hJ.fin _ _ (hJ.sent ha (by decide) h3))
    (fun _ ha hn => hJ.hang _ _ (.inr rfl) (by simp) hn (hJ.goto (hJ.sent ha (by decide) h3)))
    (fun _ _ ha => hJ.fin _ _ (hJ.called (.inr rfl) (hJ.sent ha (by decide) h3)))

theorem reserved (hJ : Tracks J Q B) (h : J s) : AllNext Q B (reservedOperation s) :=
  reservedOperation_all (P := AllNext Q B) (fun hc => hJ.conf _ h hc) (fun _ => hJ.fin _ _ h)

theorem command (hJ : Tracks J Q B) {w : Word} (hw : w ∈ emittable) (h : J s) :
    AllNext Q B (issueCommand w s) :=
  issueCommand_all (P := AllNext Q B) (fun hc => hJ.conf _ h hc)
    (fun _ hc => hJ.stop _ _ h hc)
    (fun _ ha hn => hJ.hung ha hw (by simp) hn (hJ.seq _ _ h))
    (fun _ _ ha => hJ.cmd _ (hJ.sent ha hw (hJ.seq _ .command h)))

/-- What every instruction keeps: a tracked property that the handle and output writes keep too. -/
theorem exec (hJ : Tracks J Q B) (i : Instr)
    (hraw : i = .readSample → ∀ t a b, J t → J (t.setRaw a b))
    (hder : i = .readSample → ∀ t a b c, J t → J (t.setDerived a b c))
    (hv : i = .readStatus → ∀ t v, J t → J (t.setStValue v))
    (hss : ∀ r, i = .setSingleShot r → ∀ t r', repOperand r = some r' → J t →
      J ((t.setMode .singleShot).setRep r'))
    (hsp : ∀ v r, i = .setPeriodic v r → ∀ t v' r', speedOperand v = some v' →
      repOperand r = some r' → J t → J (((t.setMode .periodic).setSpeed v').setRep r'))
    (hart : i = .setART → ∀ t, J t → J (t.setMode .art))
    (haddr : ∀ sel, i = .setAddressI2C sel ∨ i = .init sel → ∀ t, J t → J (t.resolve sel))
    (hcrc : ∀ sel, i = .init sel → ∀ t, J t → J t.installCrc)
    (hbase : ∀ sel, i = .init sel → ∀ t, J t → J ((t.setMode .singleShot).setRep .low))
    (hst : i ∈ [Instr.cmdSingleShotStretchLow, .cmdSingleShotStretchMedium, .cmdSingleShotStretchHigh] → B none)
    (h : J s) : AllNext Q B (exec i s) := by
  rcases exec_kinds i with ⟨x, rfl⟩ | rfl | ⟨x, rfl⟩ | ⟨x, y, rfl⟩ | rfl | rfl | rfl | rfl | ⟨x, rfl⟩ |
    ⟨x, rfl⟩ | ⟨hx, _⟩ | ⟨_, hw, hx⟩ | ⟨_, hx, hm⟩
  · exact hJ.init (haddr x (.inr rfl)) (hcrc x rfl) (hbase x rfl) h
  · exact hJ.deInit h
  · exact hJ.setSingleShot (hss x rfl) h
  · exact hJ.setPeriodic (hsp x y rfl) h
  · exact hJ.setART (hart rfl) h
  · exact hJ.readSample (hraw rfl) (hder rfl) h
  · exact hJ.readStatus (hv rfl) h
  · exact hJ.clearStatus h
  · exact hJ.setHeater h
  · exact hJ.setAddressI2C (haddr x (.inl rfl)) h
  · rw [hx]; exact hJ.reserved h
  · rw [hx]; exact hJ.command hw h
  · rw [hx]; exact hst hm

end Tracks

end Sys2Proof.Machine
end

