-- ==== Sys2Proof/Laws/PerInstr.lean ====
section
/-! SUPPORT. Statements made once per instruction.  `EncodedLength`: an instruction is encoded in two bytes, in the
format of its row, so every encoding has one fixed length (30_encoding.md R72). -/

namespace Sys2Proof.Laws.EncodedLength

open Sys2Proof

/-- The encoding of an instruction has two bytes, and they are its word, the more significant byte first. -/
def Statement (i : Instr) : Prop :=
  (encode i).length = 2 ∧ encode i = [hiByte i.word, loByte i.word]

theorem init (selector : Nat) : Statement (.init selector) := ⟨rfl, rfl⟩
theorem deInit : Statement .deInit := ⟨rfl, rfl⟩
theorem setSingleShot (rep : Nat) : Statement (.setSingleShot rep) := ⟨rfl, rfl⟩
theorem setPeriodic (speed rep : Nat) : Statement (.setPeriodic speed rep) := ⟨rfl, rfl⟩
theorem setART : Statement .setART := ⟨rfl, rfl⟩
theorem readSample : Statement .readSample := ⟨rfl, rfl⟩
theorem readStatus : Statement .readStatus := ⟨rfl, rfl⟩
theorem clearStatus : Statement .clearStatus := ⟨rfl, rfl⟩
theorem setHeater (enabled : Nat) : Statement (.setHeater enabled) := ⟨rfl, rfl⟩
theorem setAddressI2C (selector : Nat) : Statement (.setAddressI2C selector) := ⟨rfl, rfl⟩
theorem reservedOpA : Statement .reservedOpA := ⟨rfl, rfl⟩
theorem reservedOpB : Statement .reservedOpB := ⟨rfl, rfl⟩
theorem reservedOpC : Statement .reservedOpC := ⟨rfl, rfl⟩
theorem reservedOpD : Statement .reservedOpD := ⟨rfl, rfl⟩
theorem reservedOpE : Statement .reservedOpE := ⟨rfl, rfl⟩
theorem reservedOpF : Statement .reservedOpF := ⟨rfl, rfl⟩
theorem cmdSoftReset : Statement .cmdSoftReset := ⟨rfl, rfl⟩
theorem cmdStopPeriodic : Statement .cmdStopPeriodic := ⟨rfl, rfl⟩
theorem cmdFetchData : Statement .cmdFetchData := ⟨rfl, rfl⟩
theorem cmdReadStatus : Statement .cmdReadStatus := ⟨rfl, rfl⟩
theorem cmdClearStatus : Statement .cmdClearStatus := ⟨rfl, rfl⟩
theorem cmdHeaterOn : Statement .cmdHeaterOn := ⟨rfl, rfl⟩
theorem cmdHeaterOff : Statement .cmdHeaterOff := ⟨rfl, rfl⟩
theorem cmdART : Statement .cmdART := ⟨rfl, rfl⟩
theorem cmdPeriodicMps05Low : Statement .cmdPeriodicMps05Low := ⟨rfl, rfl⟩
theorem cmdPeriodicMps05Medium : Statement .cmdPeriodicMps05Medium := ⟨rfl, rfl⟩
theorem cmdPeriodicMps05High : Statement .cmdPeriodicMps05High := ⟨rfl, rfl⟩
theorem cmdPeriodicMps1Low : Statement .cmdPeriodicMps1Low := ⟨rfl, rfl⟩
theorem cmdPeriodicMps1Medium : Statement .cmdPeriodicMps1Medium := ⟨rfl, rfl⟩
theorem cmdPeriodicMps1High : Statement .cmdPeriodicMps1High := ⟨rfl, rfl⟩
theorem cmdPeriodicMps2Low : Statement .cmdPeriodicMps2Low := ⟨rfl, rfl⟩
theorem cmdPeriodicMps2Medium : Statement .cmdPeriodicMps2Medium := ⟨rfl, rfl⟩
theorem cmdPeriodicMps2High : Statement .cmdPeriodicMps2High := ⟨rfl, rfl⟩
theorem cmdPeriodicMps4Low : Statement .cmdPeriodicMps4Low := ⟨rfl, rfl⟩
theorem cmdPeriodicMps4Medium : Statement .cmdPeriodicMps4Medium := ⟨rfl, rfl⟩
theorem cmdPeriodicMps4High : Statement .cmdPeriodicMps4High := ⟨rfl, rfl⟩
theorem cmdPeriodicMps10Low : Statement .cmdPeriodicMps10Low := ⟨rfl, rfl⟩
theorem cmdPeriodicMps10Medium : Statement .cmdPeriodicMps10Medium := ⟨rfl, rfl⟩
theorem cmdPeriodicMps10High : Statement .cmdPeriodicMps10High := ⟨rfl, rfl⟩
theorem cmdSingleShotLow : Statement .cmdSingleShotLow := ⟨rfl, rfl⟩
theorem cmdSingleShotMedium : Statement .cmdSingleShotMedium := ⟨rfl, rfl⟩
theorem cmdSingleShotHigh : Statement .cmdSingleShotHigh := ⟨rfl, rfl⟩
theorem cmdSingleShotStretchLow : Statement .cmdSingleShotStretchLow := ⟨rfl, rfl⟩
theorem cmdSingleShotStretchMedium : Statement .cmdSingleShotStretchMedium := ⟨rfl, rfl⟩
theorem cmdSingleShotStretchHigh : Statement .cmdSingleShotStretchHigh := ⟨rfl, rfl⟩

end Sys2Proof.Laws.EncodedLength
end

