-- ==== Sys2Proof/Laws/Poll.lean ====
section
/-! SUPPORT. The start of an operation in the specified configuration, and the poll loop over attempts that fail. -/

namespace Sys2Proof.Machine

theorem statusOk_ne {st : Status} (h : st ≠ 0) : statusOk st = false := by simpa [statusOk] using h

theorem startOperation_runs {op : Operation} {s : State} {k : State → Out}
    (h : s.cfg.clockStretch = false) : startOperation op s k = k (s.goto op 1) := by
  simp [startOperation, inSpecifiedConfig, h]

/-- What the poll loop leaves alone, and that the adapter still returns. -/
structure Polled (s t : State) : Prop where
  cfg : t.cfg = s.cfg
  h : t.h = s.h
  sample : t.sample = s.sample
  stValue : t.stValue = s.stValue
  host : t.host = s.host
  returns : AdapterReturns t

/-- Where the poll loop stands after k failed attempts: k answers of a Receive and k of a Delay are taken and
recorded, and nothing but the sequencer and the scratch registers has changed (R82, D9). -/
theorem pollLoop_fails {a : BusAddr} {k : Bool → State → Out} (n : Nat) :
    ∀ (left : Nat) (s : State), s.h.addr = some a → s.cfg.hasRecv = true → s.cfg.hasDelay = true →
      AdapterReturns s → n ≤ left → (∀ j < n, s.statusAt (2 * j) ≠ some 0) →
      ∃ t, pollLoop left s k = pollLoop (left - n) t k ∧ Polled s t ∧
        (∀ i, t.answerAt i = s.answerAt (i + 2 * n)) ∧
        t.trace = s.trace ++ (List.range n).flatMap fun j =>
          [s.eventAt (2 * j) (.recv a 6), s.eventAt (2 * j + 1) (.delay 1)] := by
  induction n with
  | zero =>
    exact fun _ s _ _ _ hr _ _ => ⟨s, rfl, ⟨rfl, rfl, rfl, rfl, rfl, hr⟩, fun _ => rfl, by simp⟩
  | succ n ih =>
    intro left s ha hrc hd hr hk hf
    obtain ⟨u, hu, hs, hans, htr⟩ := ih left s ha hrc hd hr (by omega) fun j hj => hf j (by omega)
    obtain ⟨m, hm⟩ : ∃ m, left - n = m + 1 := ⟨left - n - 1, by omega⟩
    obtain ⟨st, buf, h0⟩ := answerAt_of_returns hs.returns 0
    obtain ⟨st', buf', h1⟩ := answerAt_of_returns hs.returns 1
    have h0' : s.answerAt (2 * n) = .returns st buf := by rw [← h0, hans, Nat.zero_add]
    have h1' : s.answerAt (2 * n + 1) = .returns st' buf' := by rw [← h1, hans, Nat.add_comm]
    have hst : st ≠ 0 := fun h => hf n (by omega) (by simp [State.statusAt, h0', h])
    refine ⟨(((u.attempt m).afterRecv a lenMeas st buf).goto .readSample 4).afterCall (.delay tPollMs) st',
      ?_, ⟨?_, ?_, ?_, ?_, ?_, ?_⟩, fun i => ?_, ?_⟩
    · rw [hu, hm, pollLoop_succ, busRecv_returns (a := a) (st := st) (buf := buf)
        (by simp [State.attempt, hs.h, ha]) (by simp [State.attempt, hs.cfg, hrc])
        (by simpa [State.attempt] using h0)]
      simp only [statusOk_ne hst, Bool.false_eq_true, if_false]
      rw [delay_returns (st := st') (buf := buf') (by simp [State.attempt, hs.cfg, hd])
        (by simpa [State.attempt, State.afterRecv, answerAt_record] using h1)]
      congr 1
      omega
    · simp [State.attempt, hs.cfg]
    · simp [State.attempt, hs.h]
    · simp [State.attempt, hs.sample]
    · simp [State.attempt, hs.stValue]
    · simp [State.attempt, hs.host]
    · intro x hx
      refine hs.returns x (List.mem_of_mem_tail (List.mem_of_mem_tail ?_))
      simpa [State.attempt] using hx
    · simp only [State.afterCall, State.afterRecv, State.attempt, answerAt_record, answerAt_goto,
        answerAt_setRx, answerAt_setPollCnt]
      rw [hans]
      congr 1
      omega
    · rw [List.range_succ, List.flatMap_append]
      simp [State.attempt, htr, State.eventAt, h0', h1', Call.reply, lenMeas, tPollMs]

end Sys2Proof.Machine
end

