-- ==== Sys2Proof/Laws/Relate.lean ====
section
/-! SUPPORT. Two runs of one instruction: a relation between two states that every update of an operation keeps, and
that agrees on everything an operation reads, is kept by the operation, and the two runs stop alike.  A claim
that something is never read is then a relation and a few small goals. -/

namespace Sys2Proof.Machine

/-- The two outcomes are of one kind: related next states, or the same stop. -/
def RelOut (R : State → State → Prop) : Out → Out → Prop
  | .next s, .next t => R s t
  | .fault a, .fault b => a = b
  | .refused a, .refused b => a = b
  | _, _ => False

/-- `R` agrees on what operations read (the configuration, the handle but `H.SPEED`, the adapter) and is kept by the
sequencer, the scratch registers, the call record and a return. -/
structure Bisim (R : State → State → Prop) : Prop where
  cfg : ∀ s t, R s t → t.cfg = s.cfg
  addr : ∀ s t, R s t → t.h.addr = s.h.addr
  mode : ∀ s t, R s t → t.h.mode = s.h.mode
  rep : ∀ s t, R s t → t.h.rep = s.h.rep
  crc : ∀ s t, R s t → t.h.crc = s.h.crc
  adapter : ∀ s t, R s t → t.adapter = s.adapter
  calls : ∀ s t, R s t → t.calls = s.calls
  seq : ∀ s t q, R s t → R (s.setSeq q) (t.setSeq q)
  tx : ∀ s t a b, R s t → R (s.setTx a b) (t.setTx a b)
  rx : ∀ s t n b, R s t → R (s.setRx (s.rxbuf.receive n b)) (t.setRx (t.rxbuf.receive n b))
  poll : ∀ s t n, R s t → R (s.setPollCnt n) (t.setPollCnt n)
  log : ∀ s t e, R s t → R (s.record e) (t.record e)
  res : ∀ s t r, R s t → R (s.setRes r) (t.setRes r)

namespace Bisim
variable {R : State → State → Prop} {s t : State} {k k' : Bool → State → Out}

theorem callAdapter (hR : Bisim R) {c : Call} {k k' : Status → RxBuf → State → Out} (h : R s t)
    (hk : ∀ st buf e, RelOut R (k st buf (s.record e)) (k' st buf (t.record e))) :
    RelOut R (callAdapter c s k) (callAdapter c t k') := by
  unfold Machine.callAdapter
  rw [hR.cfg s t h, answerAt_congr (hR.adapter s t h) (hR.calls s t h)]
  split
  · split
    · exact hk _ _ _
    · exact hR.log _ _ _ h
  · exact rfl

theorem writeCommand (hR : Bisim R) {w : Word} (h : R s t)
    (hk : ∀ b s t, R s t → RelOut R (k b s) (k' b t)) :
    RelOut R (writeCommand w s k) (writeCommand w t k') := by
  unfold Machine.writeCommand readAddr
  rw [hR.addr s t h]
  split
  · exact hR.callAdapter (hR.tx _ _ _ _ h) fun st buf e => hk _ _ _ (hR.log _ _ e (hR.tx _ _ _ _ h))
  · exact rfl

theorem busRecv (hR : Bisim R) {n : Nat} {k k' : Status → State → Out} (h : R s t)
    (hk : ∀ st (x y : RxBuf) b s t, R s t → s.rxbuf = x.receive n b → t.rxbuf = y.receive n b →
      RelOut R (k st s) (k' st t)) :
    RelOut R (busRecv n s k) (busRecv n t k') := by
  unfold Machine.busRecv readAddr
  rw [hR.addr s t h]
  split
  · exact hR.callAdapter h fun st buf e =>
      hk st s.rxbuf t.rxbuf buf _ _ (hR.rx _ _ n buf (hR.log _ _ e h)) rfl rfl
  · exact rfl

theorem delay (hR : Bisim R) {ms : Nat} {k k' : State → Out} (h : R s t)
    (hk : ∀ s t, R s t → RelOut R (k s) (k' t)) : RelOut R (delay ms s k) (delay ms t k') :=
  hR.callAdapter h fun _ _ e => hk _ _ (hR.log _ _ e h)

theorem crcCheck (hR : Bisim R) {v : Word} {c : Byte} (h : R s t)
    (hk : ∀ b s' t', R s' t' → s'.rxbuf = s.rxbuf → t'.rxbuf = t.rxbuf → RelOut R (k b s') (k' b t')) :
    RelOut R (crcCheck v c s k) (crcCheck v c t k') := by
  unfold Machine.crcCheck
  rw [hR.crc s t h]
  split
  · exact hR.callAdapter h fun st buf e => hk _ _ _ (hR.log _ _ e h) rfl rfl
  · exact hk _ _ _ h rfl rfl
  · exact rfl

theorem fin (hR : Bisim R) {r : Result} (h : R s t) : RelOut R (returnResult r s) (returnResult r t) :=
  hR.seq _ _ _ (hR.res _ _ _ h)

theorem goto (hR : Bisim R) {op : Operation} {l : Nat} (h : R s t) : R (s.goto op l) (t.goto op l) :=
  hR.seq _ _ _ h

theorem inSpecifiedConfig (hR : Bisim R) {k k' : State → Out} (h : R s t) (hk : RelOut R (k s) (k' t)) :
    RelOut R (inSpecifiedConfig s k) (inSpecifiedConfig t k') := by
  unfold Machine.inSpecifiedConfig
  rw [hR.cfg s t h]
  split
  · exact rfl
  · exact hk

theorem start (hR : Bisim R) {op : Operation} {k k' : State → Out} (h : R s t)
    (hk : RelOut R (k (s.goto op 1)) (k' (t.goto op 1))) :
    RelOut R (startOperation op s k) (startOperation op t k') :=
  hR.inSpecifiedConfig h hk

/-- One Send and then a return. -/
theorem sendThenReturn (hR : Bisim R) {w : Word} {f g : State → State} (h : R s t)
    (hf : ∀ s t, R s t → R (f s) (g t)) :
    RelOut R (Machine.writeCommand w s fun sent s =>
        if sent then returnResult .ok (f s) else returnResult .fail s)
      (Machine.writeCommand w t fun sent t =>
        if sent then returnResult .ok (g t) else returnResult .fail t) := by
  refine hR.writeCommand h fun b s t h => ?_
  cases b
  · exact hR.fin h
  · exact hR.fin (hf _ _ h)

theorem pollLoop (hR : Bisim R) (hfail : ∀ s t, R s t → RelOut R (k false s) (k' false t))
    (hok : ∀ s t, R s t → t.rxbuf = s.rxbuf → RelOut R (k true s) (k' true t)) (left : Nat) :
    ∀ s t, R s t → RelOut R (pollLoop left s k) (pollLoop left t k') := by
  induction left with
  | zero => exact hfail
  | succ left ih =>
    intro s t h
    rw [pollLoop_succ, pollLoop_succ]
    refine hR.busRecv (hR.goto (hR.poll _ _ _ h)) fun st x y b s t h hs ht => ?_
    split
    · exact hok _ _ h (by rw [hs, ht]; rfl)
    · exact hR.delay (hR.goto h) ih

theorem sampleTail (hR : Bisim R) (hraw : ∀ s t a b, R s t → R (s.setRaw a b) (t.setRaw a b))
    (hder : ∀ s t a b c, R s t → R (s.setDerived a b c) (t.setDerived a b c)) (h : R s t)
    (hb : t.rxbuf = s.rxbuf) : RelOut R (sampleTail s) (sampleTail t) := by
  unfold Machine.sampleTail
  simp only [hb]
  refine hR.crcCheck (hR.goto (hraw _ _ _ _ h)) fun b s' t' h' hs ht => ?_
  have hs' : s'.rxbuf = s.rxbuf := hs
  have ht' : t'.rxbuf = s.rxbuf := ht.trans hb
  cases b
  · exact hR.fin h'
  · simp only [hs', ht', if_true]
    refine hR.crcCheck (hR.goto h') fun b s t h _ _ => ?_
    cases b
    · exact hR.fin h
    · exact hR.fin (hder _ _ _ _ _ h)

theorem readSample (hR : Bisim R) (hraw : ∀ s t a b, R s t → R (s.setRaw a b) (t.setRaw a b))
    (hder : ∀ s t a b c, R s t → R (s.setDerived a b c) (t.setDerived a b c)) (h : R s t) :
    RelOut R (execReadSample s) (execReadSample t) := by
  refine hR.start h ?_
  have h1 := hR.goto (op := .readSample) (l := 1) h
  have hfetch : RelOut R (fetchPath (s.goto .readSample 1)) (fetchPath (t.goto .readSample 1)) := by
    refine hR.writeCommand (hR.goto h1) fun b s t h => ?_
    cases b
    · exact hR.fin h
    · simp only [if_true]
      refine hR.busRecv (hR.goto h) fun st x y b s t h hs ht => ?_
      rw [hR.cfg s t h]
      split
      · exact hR.sampleTail hraw hder h (by rw [hs, ht]; rfl)
      · exact hR.fin h
      · exact hR.fin h
  have hsingle : RelOut R (singleShotPath (s.goto .readSample 1)) (singleShotPath (t.goto .readSample 1)) := by
    unfold singleShotPath
    rw [hR.rep _ _ h1]
    split
    · exact rfl
    · split
      · exact rfl
      · refine hR.writeCommand (hR.goto h1) fun b s t h => ?_
        cases b
        · exact hR.fin h
        · refine hR.pollLoop (fun s t h => hR.fin h) (fun s t h hb => ?_) nPoll _ _ h
          simp only [if_true]
          rw [hb]
          split
          · exact hR.fin h
          · exact hR.sampleTail hraw hder h hb
  rw [hR.mode _ _ h1]
  split
  · exact rfl
  · exact hsingle
  · exact hfetch
  · exact hfetch
  · exact hR.fin h1

theorem readStatus (hR : Bisim R) (hv : ∀ s t v, R s t → R (s.setStValue v) (t.setStValue v))
    (h : R s t) : RelOut R (execReadStatus s) (execReadStatus t) := by
  refine hR.start h (hR.writeCommand (hR.goto h) fun b s t h => ?_)
  cases b
  · exact hR.fin h
  · simp only [if_true]
    refine hR.busRecv (hR.goto h) fun st x y b s t h hs ht => ?_
    split
    · have h0 : t.rxbuf.word0 = s.rxbuf.word0 := by rw [hs, ht]; rfl
      have h2 : t.rxbuf.b2 = s.rxbuf.b2 := by rw [hs, ht]; rfl
      simp only [h0, h2]
      refine hR.crcCheck (hR.goto (hv _ _ _ h)) fun b s t h _ _ => ?_
      cases b
      · exact hR.fin h
      · exact hR.fin h
    · exact hR.fin h

theorem initBaseline (hR : Bisim R)
    (hb : ∀ s t, R s t → R ((s.setMode .singleShot).setRep .low) ((t.setMode .singleShot).setRep .low))
    (h : R s t) : RelOut R (initBaseline s) (initBaseline t) := by
  refine hR.writeCommand (hR.goto (hb _ _ h)) fun b s t h => ?_
  cases b
  · exact hR.fin h
  · exact hR.delay (hR.goto h) fun s t h => hR.fin h

theorem init (hR : Bisim R) {sel : Nat} (hm : ∀ s t, R s t → R (s.resolve sel) (t.resolve sel))
    (hc : ∀ s t, R s t → R s.installCrc t.installCrc)
    (hb : ∀ s t, R s t → R ((s.setMode .singleShot).setRep .low) ((t.setMode .singleShot).setRep .low))
    (h : R s t) : RelOut R (execInit sel s) (execInit sel t) := by
  refine hR.start h ?_
  have h1 := hm _ _ (hR.goto (op := .init) (l := 1) h)
  have h2 := hc _ _ h1
  simp only [hR.cfg _ _ h1, hR.cfg _ _ h2]
  split
  · split
    · refine hR.callAdapter (hR.goto h2) fun st buf e => ?_
      cases statusOk st
      · exact hR.fin (hR.log _ _ e (hR.goto h2))
      · exact hR.initBaseline hb (hR.log _ _ e (hR.goto h2))
    · exact hR.initBaseline hb h2
  · exact hR.fin h1

theorem deInit (hR : Bisim R) (h : R s t) : RelOut R (execDeInit s) (execDeInit t) := by
  refine hR.start h ?_
  have h1 := hR.goto (op := .deInit) (l := 1) h
  rw [hR.cfg _ _ h1]
  split
  · refine hR.callAdapter (hR.goto h1) fun st buf e => ?_
    cases statusOk st
    · exact hR.fin (hR.log _ _ e (hR.goto h1))
    · exact hR.fin (hR.log _ _ e (hR.goto h1))
  · exact hR.fin h1

/-- What two runs of any instruction do, for a relation that the handle and output writes keep too. -/
theorem exec (hR : Bisim R) (i : Instr)
    (hraw : i = .readSample → ∀ s t a b, R s t → R (s.setRaw a b) (t.setRaw a b))
    (hder : i = .readSample → ∀ s t a b c, R s t → R (s.setDerived a b c) (t.setDerived a b c))
    (hv : i = .readStatus → ∀ s t v, R s t → R (s.setStValue v) (t.setStValue v))
    (hss : ∀ r, i = .setSingleShot r → ∀ s t r', R s t →
      R ((s.setMode .singleShot).setRep r') ((t.setMode .singleShot).setRep r'))
    (hsp : ∀ v r, i = .setPeriodic v r → ∀ s t v' r', R s t →
      R (((s.setMode .periodic).setSpeed v').setRep r') (((t.setMode .periodic).setSpeed v').setRep r'))
    (hart : i = .setART → ∀ s t, R s t → R (s.setMode .art) (t.setMode .art))
    (haddr : ∀ sel, i = .setAddressI2C sel ∨ i = .init sel → ∀ s t, R s t →
      R (s.resolve sel) (t.resolve sel))
    (hcrc : ∀ sel, i = .init sel → ∀ s t, R s t → R s.installCrc t.installCrc)
    (hbase : ∀ sel, i = .init sel → ∀ s t, R s t →
      R ((s.setMode .singleShot).setRep .low) ((t.setMode .singleShot).setRep .low))
    (h : R s t) : RelOut R (Machine.exec i s) (Machine.exec i t) := by
  rcases exec_kinds i with ⟨x, rfl⟩ | rfl | ⟨x, rfl⟩ | ⟨x, y, rfl⟩ | rfl | rfl | rfl | rfl | ⟨x, rfl⟩ |
    ⟨x, rfl⟩ | ⟨hx, _⟩ | ⟨_, _, hx⟩ | ⟨_, hx, _⟩
  · exact hR.init (haddr x (.inr rfl)) (hcrc x rfl) (hbase x rfl) h
  · exact hR.deInit h
  · show RelOut R (execSetSingleShot x s) (execSetSingleShot x t)
    refine hR.start h ?_
    split
    · exact hR.fin (hR.goto h)
    · exact hR.sendThenReturn (hR.goto (hR.goto h)) fun s t h => hss x rfl s t _ h
  · show RelOut R (execSetPeriodic x y s) (execSetPeriodic x y t)
    refine hR.start h ?_
    split
    · split
      · exact rfl
      · exact hR.sendThenReturn (hR.goto (hR.goto h)) fun s t h => hsp x y rfl s t _ _ h
    · exact hR.fin (hR.goto h)
  · show RelOut R (execSetART s) (execSetART t)
    exact hR.start h (hR.sendThenReturn (g := fun t => t.setMode .art) (hR.goto h) (hart rfl))
  · exact hR.readSample (hraw rfl) (hder rfl) h
  · exact hR.readStatus (hv rfl) h
  · show RelOut R (execClearStatus s) (execClearStatus t)
    exact hR.start h (hR.sendThenReturn (f := id) (g := id) (hR.goto h) fun _ _ h => h)
  · show RelOut R (execSetHeater x s) (execSetHeater x t)
    exact hR.start h (hR.sendThenReturn (f := id) (g := id) (hR.goto (hR.goto h)) fun _ _ h => h)
  · show RelOut R (execSetAddressI2C x s) (execSetAddressI2C x t)
    exact hR.start h (hR.fin (haddr x (.inl rfl) _ _ (hR.goto h)))
  · rw [hx, hx]
    exact hR.inSpecifiedConfig h (hR.fin h)
  · rw [hx, hx]
    exact hR.inSpecifiedConfig h (hR.writeCommand (hR.seq _ _ _ h) fun _ _ _ h => hR.seq _ _ _ h)
  · rw [hx, hx]
    exact rfl

end Bisim

end Sys2Proof.Machine
end

