-- ==== Sys2Proof/Tests/Slice0.lean ====
section
/-! SUPPORT. Tests.  Expected words, traces and results are those of spec/30_encoding.md and spec/95_test_vectors.md,
never the model's own output.  Part 1 well-formedness, part 2 decoding, part 3 one step of each operation, part 4
for each statement with hypotheses a state and operands that meet them. -/

namespace Sys2Proof.Tests

open Sys2Proof Sys2Proof.Machine

/-! ### Part 1. Ill-formed terms are refused -/

theorem test_wf_selector : (Instr.init 256).wf = false ∧ (Instr.init 255).wf = true := by decide
theorem test_wf_address : (Instr.setAddressI2C 256).wf = false ∧ (Instr.setAddressI2C 0x8A).wf = true := by
  decide
theorem test_wf_rep : (Instr.setSingleShot 16).wf = false ∧ (Instr.setSingleShot 15).wf = true := by decide
theorem test_wf_periodic_speed : (Instr.setPeriodic 256 0).wf = false := by decide
theorem test_wf_periodic_rep : (Instr.setPeriodic 0 16).wf = false ∧ (Instr.setPeriodic 255 15).wf = true := by
  decide
theorem test_wf_heater : (Instr.setHeater 16).wf = false ∧ (Instr.setHeater 15).wf = true := by decide

/-! ### Part 2. Words written out from the spec's encodings -/

/-- R53, R55, 95 section 2.9: operation number, then a, then b; ignored fields all ones. -/
theorem test_decode_operations :
    decodeRequest 0b0000_00000001_0000#16 = .init 1 ∧
    decodeRequest 0b0000_11111111_1111#16 = .init 0xFF ∧
    decodeRequest 0b0001_00100011_0100#16 = .deInit ∧
    decodeRequest 0b0010_11111111_0010#16 = .setSingleShot 2 ∧
    decodeRequest 0b0011_00000011_0010#16 = .setPeriodic 3 2 ∧
    decodeRequest 0b0100_10101011_1100#16 = .setART ∧
    decodeRequest 0b0101_11111111_1111#16 = .readSample ∧
    decodeRequest 0b0110_00000000_0000#16 = .readStatus ∧
    decodeRequest 0b0111_00000000_0000#16 = .clearStatus ∧
    decodeRequest 0b1000_00000000_1001#16 = .setHeater 9 ∧
    decodeRequest 0b1001_01000101_0000#16 = .setAddressI2C 0x45 := by decide

/-- R69, 95 section 2.9: the reserved operation numbers. -/
theorem test_decode_reserved :
    decodeRequest 0xA000 = .reservedOpA ∧ decodeRequest 0xB000 = .reservedOpB ∧
    decodeRequest 0xC000 = .reservedOpC ∧ decodeRequest 0xD000 = .reservedOpD ∧
    decodeRequest 0xE000 = .reservedOpE ∧ decodeRequest 0xF123 = .reservedOpF := by decide

/-- R61: the fixed commands. -/
theorem test_decode_fixed :
    decodeCommand 0x30A2 = some .cmdSoftReset ∧ decodeCommand 0x3093 = some .cmdStopPeriodic ∧
    decodeCommand 0xE000 = some .cmdFetchData ∧ decodeCommand 0xF32D = some .cmdReadStatus ∧
    decodeCommand 0x3041 = some .cmdClearStatus ∧ decodeCommand 0x306D = some .cmdHeaterOn ∧
    decodeCommand 0x3066 = some .cmdHeaterOff ∧ decodeCommand 0x2B32 = some .cmdART := by decide

/-- R62: the periodic table. -/
theorem test_decode_periodic :
    decodeCommand 0x202F = some .cmdPeriodicMps05Low ∧ decodeCommand 0x2024 = some .cmdPeriodicMps05Medium ∧
    decodeCommand 0x2032 = some .cmdPeriodicMps05High ∧ decodeCommand 0x212D = some .cmdPeriodicMps1Low ∧
    decodeCommand 0x2126 = some .cmdPeriodicMps1Medium ∧ decodeCommand 0x2130 = some .cmdPeriodicMps1High ∧
    decodeCommand 0x222B = some .cmdPeriodicMps2Low ∧ decodeCommand 0x2220 = some .cmdPeriodicMps2Medium ∧
    decodeCommand 0x2236 = some .cmdPeriodicMps2High ∧ decodeCommand 0x2329 = some .cmdPeriodicMps4Low ∧
    decodeCommand 0x2322 = some .cmdPeriodicMps4Medium ∧ decodeCommand 0x2334 = some .cmdPeriodicMps4High ∧
    decodeCommand 0x272A = some .cmdPeriodicMps10Low ∧ decodeCommand 0x2721 = some .cmdPeriodicMps10Medium ∧
    decodeCommand 0x2737 = some .cmdPeriodicMps10High := by decide

/-- R63, R64: the single-shot tables; R71: a neighbour is no command. -/
theorem test_decode_single :
    decodeCommand 0x2416 = some .cmdSingleShotLow ∧ decodeCommand 0x240B = some .cmdSingleShotMedium ∧
    decodeCommand 0x2400 = some .cmdSingleShotHigh ∧ decodeCommand 0x2C10 = some .cmdSingleShotStretchLow ∧
    decodeCommand 0x2C0D = some .cmdSingleShotStretchMedium ∧
    decodeCommand 0x2C06 = some .cmdSingleShotStretchHigh ∧
    decodeCommand 0x2401 = none ∧ decodeCommand 0x0000 = none := by decide

/-- No two rows of the command table overlap (R60). -/
theorem test_commands_distinct : commandRows.Pairwise (fun a b => a.code ≠ b.code) := by decide

/-- R46: 29 points of the command space. -/
theorem test_commands_count : commandRows.length = 29 := by decide

/-- Bytes: both formats are two bytes, the first the more significant (R39, R72). -/
theorem test_decode_bytes :
    decode .cmd16 [0x30, 0xA2, 0x55] = .ok (.cmdSoftReset, [0x55]) ∧
    decode .cmd16 [0xA2, 0x30] = .error .notACommand ∧ decode .req16 [0x30] = .error .truncated ∧
    decode .req16 [0x30, 0x12] = .ok (.setPeriodic 1 2, []) := by decide

/-- The opcode table's own numbering (log 10). -/
theorem test_table_words :
    decodeTableWord 16 0x4ABC = some .setART ∧ decodeTableWord 16 0xF32D = some .cmdReadStatus ∧
    decodeTableWord 16 0x10000 = none := by decide

/-! ### Part 3. One step of each operation -/

/-- Power-on as the vectors have it (95 section 2.10, R30): no register holds a value. -/
def unwritten : State := State.powerOn { Config.standard with powerOnRegisters := .noValue }

/-- The handle the vectors start from (95 section 2.3). -/
def start : State :=
  { unwritten with h := ⟨some 0x44#7, some .periodic, some .high, some .mps2, .default⟩ }

/-- The same in single-shot mode at address 0x45 (95 section 2.4). -/
def single (r : Repeatability) : State :=
  { start with h := { start.h with addr := some 0x45#7, mode := some .singleShot, rep := some r } }

/-- With the adapter's CRC check bound. -/
def withExt (s : State) : State := { s with cfg := { s.cfg with hasCrc := true }, h := { s.h with crc := .ext } }

/-- An adapter script. -/
def answering (s : State) (l : List Answer) : State := { s with adapter := l }

/-- A status, with nothing received. -/
def st (v : Status) : Answer := .returns v ⟨0, 0, 0, 0, 0, 0⟩

/-- A frame received with status 0. -/
def frame (b0 b1 b2 b3 b4 b5 : Byte) : Answer := .returns 0 ⟨b0, b1, b2, b3, b4, b5⟩

/-- The result, and the calls in order. -/
def seen : Out → Option (Option Result × List Call)
  | .next t => some (t.res, t.trace.map (·.call))
  | _ => none

def handleOf : Out → Option Handle
  | .next t => some t.h
  | _ => none

def rawOf : Out → Option (Reg Word × Reg Word)
  | .next t => some (t.sample.tRaw, t.sample.hRaw)
  | _ => none

def statusOf : Out → Option (Reg Word)
  | .next t => some t.stValue
  | _ => none

def faultOf : Out → Option Fault
  | .fault r => some r
  | _ => none

def refusalOf : Out → Option Refusal
  | .refused r => some r
  | _ => none

def nextOf : Out → Option State
  | .next t => some t
  | _ => none

/-- k failed polls at an address. -/
def polls (a : BusAddr) : Nat → List Call
  | 0 => []
  | k + 1 => .recv a 6 :: .delay 1 :: polls a k

/-- 95 section 2.8, Init 0 and its failed soft reset. -/
theorem test_init_ok :
    seen (exec (.init 0) (answering unwritten [st 0, st 0])) =
      some (some .ok, [.send 0x44 0x30 0xA2, .delay 2]) ∧
    handleOf (exec (.init 0) (answering unwritten [st 0, st 0])) =
      some ⟨some 0x44#7, some .singleShot, some .low, none, .default⟩ := by decide
/-- 95 section 2.8, Init 1 with a failing platform init; section S7, Init without Send. -/
theorem test_init_fails :
    let s := { unwritten with cfg := { unwritten.cfg with hasInit := true } }
    let u := { unwritten with cfg := { unwritten.cfg with hasSend := false } }
    seen (exec (.init 1) (answering s [st 0xFF])) = some (some .fail, [.platformInit]) ∧
    handleOf (exec (.init 1) (answering s [st 0xFF])) = some ⟨some 0x45#7, none, none, none, .default⟩ ∧
    seen (exec (.init 0) u) = some (some .invalidParam, []) ∧
    handleOf (exec (.init 0) u) = some ⟨some 0x44#7, none, none, none, .unbound⟩ := by decide
/-- 95 section 2.8, DeInit. -/
theorem test_deinit :
    let s := { start with cfg := { start.cfg with hasDeInit := true } }
    seen (exec .deInit start) = some (some .ok, []) ∧
    seen (exec .deInit (answering s [st 2])) = some (some .fail, [.platformDeInit]) := by decide
/-- 95 section 2.3, SetSingleShot. -/
theorem test_set_single_shot :
    seen (exec (.setSingleShot 1) (answering start [st 0])) = some (some .ok, [.send 0x44 0x30 0x93]) ∧
    handleOf (exec (.setSingleShot 1) (answering start [st 0])) =
      some ⟨some 0x44#7, some .singleShot, some .medium, some .mps2, .default⟩ ∧
    seen (exec (.setSingleShot 3) start) = some (some .invalidParam, []) ∧
    seen (exec (.setSingleShot 0) (answering start [st 0xFB])) =
      some (some .fail, [.send 0x44 0x30 0x93]) := by decide
/-- 95 sections S2 and 2.3, SetPeriodic. -/
theorem test_set_periodic :
    seen (exec (.setPeriodic 3 2) (answering start [st 0])) = some (some .ok, [.send 0x44 0x23 0x34]) ∧
    handleOf (exec (.setPeriodic 3 2) (answering start [st 0])) =
      some ⟨some 0x44#7, some .periodic, some .high, some .mps4, .default⟩ ∧
    seen (exec (.setPeriodic 5 0) start) = some (some .invalidParam, []) ∧
    handleOf (exec (.setPeriodic 4 0) (answering start [st 1])) = some start.h := by decide
/-- 95 section 2.3, SetART. -/
theorem test_set_art :
    seen (exec .setART (answering start [st 0])) = some (some .ok, [.send 0x44 0x2B 0x32]) ∧
    handleOf (exec .setART (answering start [st 0])) =
      some ⟨some 0x44#7, some .art, some .high, some .mps2, .default⟩ := by decide
/-- 95 section 2.4: three polls that NACK, then a frame; the zero-CRC guard; 20 failures (S4). -/
theorem test_read_single :
    let s := answering (single .medium)
      [st 0, st 0xFF, st 0, st 0xFF, st 0, st 0xFF, st 0, frame 0x66 0x66 0x93 0x80 0x00 0xA2]
    let z := answering (single .high) [st 0, frame 0x00 0xAC 0x00 0x00 0xAC 0x00]
    let f := answering (single .low) (List.replicate 41 (st 0xFB) |>.set 0 (st 0))
    seen (exec .readSample s) = some (some .ok, .send 0x45 0x24 0x0B :: polls 0x45 3 ++ [.recv 0x45 6]) ∧
    rawOf (exec .readSample s) = some (some 0x6666, some 0x8000) ∧
    seen (exec .readSample z) = some (some .fail, [.send 0x45 0x24 0x00, .recv 0x45 6]) ∧
    rawOf (exec .readSample z) = some (none, none) ∧
    seen (exec .readSample f) = some (some .fail, .send 0x45 0x24 0x16 :: polls 0x45 20) := by decide
/-- 95 section 2.5 and S6: a fetched frame, a NACK, and a CRC that fails at the temperature. -/
theorem test_read_periodic :
    let s := answering start [st 0, frame 0x66 0x2E 0xFF 0x7D 0x13 0xFF]
    let n := answering start [st 0, st 0xFF]
    let c := answering (withExt start) [st 0, frame 0x66 0x2E 0x17 0x7D 0x13 0xEA, st 1]
    seen (exec .readSample s) = some (some .ok, [.send 0x44 0xE0 0x00, .recv 0x44 6]) ∧
    rawOf (exec .readSample s) = some (some 26158, some 32019) ∧
    seen (exec .readSample n) = some (some .noData, [.send 0x44 0xE0 0x00, .recv 0x44 6]) ∧
    seen (exec .readSample c) =
      some (some .crcError, [.send 0x44 0xE0 0x00, .recv 0x44 6, .crc 0x662E 0x17]) ∧
    rawOf (exec .readSample c) = some (some 0x662E, some 0x7D13) := by decide
/-- 95 section 2.7, ReadStatus. -/
theorem test_read_status :
    let s := answering start [st 0, frame 0x80 0x10 0xE1 0 0 0]
    let c := answering (withExt start) [st 0, frame 0x80 0x10 0x00 0 0 0, st 1]
    seen (exec .readStatus s) = some (some .ok, [.send 0x44 0xF3 0x2D, .recv 0x44 3]) ∧
    statusOf (exec .readStatus s) = some (some 0x8010) ∧
    seen (exec .readStatus c) =
      some (some .crcError, [.send 0x44 0xF3 0x2D, .recv 0x44 3, .crc 0x8010 0x00]) ∧
    seen (exec .readStatus (answering start [st 0, st 0xFF])) =
      some (some .fail, [.send 0x44 0xF3 0x2D, .recv 0x44 3]) := by decide
/-- 95 section 2.7, ClearStatus, SetHeater, SetAddressI2C. -/
theorem test_control :
    seen (exec .clearStatus (answering start [st 0])) = some (some .ok, [.send 0x44 0x30 0x41]) ∧
    seen (exec .clearStatus (answering start [st 3])) = some (some .fail, [.send 0x44 0x30 0x41]) ∧
    seen (exec (.setHeater 9) (answering start [st 0])) = some (some .ok, [.send 0x44 0x30 0x6D]) ∧
    seen (exec (.setHeater 0) (answering start [st 0])) = some (some .ok, [.send 0x44 0x30 0x66]) ∧
    handleOf (exec (.setAddressI2C 0x8A) start) = some { start.h with addr := some 0x45#7 } ∧
    handleOf (exec (.setAddressI2C 0x89) start) = some { start.h with addr := some 0x44#7 } := by decide
/-- 95 section 2.9: a reserved number has no effect but its result. -/
theorem test_reserved : seen (exec .reservedOpF start) = some (some .invalidParam, []) ∧
    handleOf (exec .reservedOpA start) = some start.h := by decide
/-- 95 section 2.1: a bare command is its two bytes in one Send, and no result (log 9). -/
theorem test_commands :
    seen (exec .cmdFetchData (answering start [st 0])) = some (none, [.send 0x44 0xE0 0x00]) ∧
    seen (exec .cmdPeriodicMps05Low (answering start [st 5])) = some (none, [.send 0x44 0x20 0x2F]) ∧
    refusalOf (exec .cmdSingleShotStretchLow start) = some .clockStretchConfiguration := by decide
/-- 95 section 2.10: the faults. -/
theorem test_faults :
    let u := answering { start with h := { start.h with crc := .unbound } } [st 0, st 0]
    faultOf (exec .readSample unwritten) = some (.registerHoldsNoValue .mode) ∧
    faultOf (exec .clearStatus unwritten) = some (.registerHoldsNoValue .addr) ∧
    faultOf (exec .readStatus u) = some .crcUnbound := by decide
/-- 70 R136: a call that never returns leaves the sequencer at its line, and the reset input frees it (R122). -/
theorem test_hang :
    let hung := nextOf (exec .setART (answering start [.never]))
    hung.map (·.seq) = some (.running .setART 1) ∧
    (hung.bind fun t => refusalOf (step { t with host := [.request 0x4000] })) = some .requestWhileBusy ∧
    (hung.bind fun t => nextOf (step { t with host := [.rst] })).map (fun u => (u.seq, u.h.addr)) =
      some (.idle, none) := by decide
/-- From the reset state itself every register holds a value (log 2): a mode-setting request runs at once. -/
theorem test_runs_from_reset :
    seen (exec (.setSingleShot 1) (answering State.reset [st 0])) = some (some .ok, [.send 0x44 0x30 0x93]) ∧
    seen (exec .readSample (answering State.reset [st 1])) = some (some .fail, [.send 0x44 0x24 0x16]) := by
  decide
/-- 95 section 2.10: from reset, SetAddressI2C 0 is the nearest accepted request, presented and stepped. -/
theorem test_step :
    (nextOf (step (State.reset.withFetchWord 16 0x9000))).map (fun t => (t.h.addr, t.res, t.host)) =
      some (some 0x44#7, some .ok, []) := by decide
/-- 95 section 2.6: rows of the conversion table. -/
theorem test_conversion :
    celsiusQ 1 = -589780 / 13107 ∧ fahrenheitQ 256 = -208705 / 4369 ∧ humidityQ 48879 = 325860 / 4369 := by
  have h1 : (1 : Word).toNat = 1 := by decide
  have h2 : (256 : Word).toNat = 256 := by decide
  have h3 : (48879 : Word).toNat = 48879 := by decide
  unfold celsiusQ fahrenheitQ humidityQ
  rw [h1, h2, h3]
  norm_num

/-! ### Part 4. For each statement with hypotheses, a state and operands that meet them -/

theorem witness_DecodeInvertsEncode :
    ∀ i ∈ [Instr.init 255, .setSingleShot 15, .setPeriodic 255 15, .setHeater 15, .setAddressI2C 255, .deInit,
      .reservedOpE, .cmdFetchData], i.wf = true := by decide

/-- One pair of words for each premise: operation 2 uses only b, 9 only a, 3 both, 1 neither. -/
theorem witness_IgnoredRequestFieldsHaveNoEffect :
    ∀ p ∈ [(0x2FF2#16, 0x2002#16), (0x9450#16, 0x945F#16), (0x3FFF#16, 0x3FFF#16), (0x1000#16, 0x1FFF#16)],
      p.1.extractLsb' 12 4 = p.2.extractLsb' 12 4 ∧
      (p.1.extractLsb' 12 4 ∈ [0x0#4, 0x3#4, 0x9#4] → p.1.extractLsb' 4 8 = p.2.extractLsb' 4 8) ∧
      (p.1.extractLsb' 12 4 ∈ [0x2#4, 0x3#4, 0x8#4] → p.1.extractLsb' 0 4 = p.2.extractLsb' 0 4) := by
  simp

/-- Each clause: a request, a command, a code that is no command, nothing presented. -/
theorem witness_StepRunsThePresentedInstruction :
    start.seq = .idle ∧
    (start.setHost [.request 0xFFFF]).host = .request 0xFFFF :: [] ∧
    (start.setHost [.command 0xE000]).host = .command 0xE000 :: [] ∧
    decodeCommand 0xE000 = some .cmdFetchData ∧ decodeCommand 0xE001 = none ∧ start.host = [] := by decide

/-- Each clause: a request, a command, nothing presented. -/
theorem witness_ABusyBlockRefusesAndStays :
    let s := start.goto .readSample 3
    s.seq ≠ .idle ∧ (s.setHost [.request 0x7000]).host = .request 0x7000 :: [] ∧
    (s.setHost [.command 0xE000]).host = .command 0xE000 :: [] ∧ s.host = [] := by decide

/-- Each clause: the two power-on configurations. -/
theorem witness_PowerOnContents :
    State.reset.cfg.powerOnRegisters = .resetValues ∧ unwritten.cfg.powerOnRegisters = .noValue := by decide

theorem witness_ResetInputRestoresPowerOn :
    ((start.goto .readSample 3).setHost [.rst]).host = .rst :: [] := by decide

theorem witness_WriteCommandSendsHighByteFirst :
    let s := answering start [st 0x80]
    s.h.addr = some 0x44#7 ∧ s.cfg.hasSend = true ∧ s.answerAt 0 = st 0x80 := by decide

/-- The least and the greatest negative code. -/
theorem witness_ReceiveStatusIsClassified :
    let lo := { Config.standard with nackCode := 0x80 }
    lo.nackCode.toInt < 0 ∧ Config.standard.nackCode.toInt < 0 := by decide

/-- Each clause: `Ext` with a valid and an invalid answer, `Default`, `None`. -/
theorem witness_CrcCheckFollowsTheBinding :
    let s := answering (withExt start) [st 1]
    let u := answering (withExt start) [st 0]
    (s.h.crc = .ext ∧ s.cfg.hasCrc = true ∧ s.answerAt 0 = st 1 ∧ u.answerAt 0 = st 0) ∧
    start.h.crc = .default ∧ unwritten.h.crc = .unbound := by decide

theorem witness_OperandRanges : start.cfg.clockStretch = false ∧ 2 < 3 ∧ 4 < 5 := by decide

/-- Each clause: the first illegal operand; the last legal one, with a Send that succeeds and one that fails; a
request word with the ignored field all ones. -/
theorem witness_SetSingleShotValidatesSendsStores :
    (0x2FF2#16).extractLsb' 12 4 = 0x2#4 ∧
    start.cfg.clockStretch = false ∧ 2 < 3 ∧
    (2, Repeatability.high) ∈ [(0, Repeatability.low), (1, .medium), (2, .high)] ∧
    start.h.addr = some 0x44#7 ∧ start.cfg.hasSend = true ∧
    (answering start [st 0xFF]).answerAt 0 = st 0xFF ∧ (answering start [st 0]).answerAt 0 = st 0 := by
  decide

theorem witness_SetPeriodicSendsTheTableCode :
    ((4, 2), (Speed.mps10, Repeatability.high), 0x27#8, 0x37#8) ∈ periodicTable ∧
    start.cfg.clockStretch = false ∧ start.h.addr = some 0x44#7 ∧ start.cfg.hasSend = true ∧
    (answering start [st 1]).answerAt 0 = st 1 ∧ (answering start [st 0]).answerAt 0 = st 0 := by decide

theorem witness_SetARTSendsThenStoresMode :
    (0x4ABC#16).extractLsb' 12 4 = 0x4#4 ∧
    start.cfg.clockStretch = false ∧ start.h.addr = some 0x44#7 ∧ start.cfg.hasSend = true ∧
    (answering start [st 0xFF]).answerAt 0 = st 0xFF ∧ (answering start [st 0]).answerAt 0 = st 0 := by
  decide

theorem witness_ClearStatusAndHeaterSendOnce :
    start.cfg.clockStretch = false ∧ start.h.addr = some 0x44#7 ∧ start.cfg.hasSend = true ∧
    (answering start [st 3]).answerAt 0 = st 3 ∧ (answering start [st 0]).answerAt 0 = st 0 ∧
    (15 : Nat) ≠ 0 := by decide

/-- Each clause, the last with each policy. -/
theorem witness_SetAddressResolvesTheSelector :
    let kept := { start with cfg := { start.cfg with addrDefaultPolicy := .keepPrevious } }
    start.cfg.clockStretch = false ∧ kept.cfg.clockStretch = false ∧
    0x88 ∈ [0x00, 0x44, 0x88] ∧ 0x8A ∈ [0x01, 0x45, 0x8A] ∧
    0x02 ∉ [0x00, 0x44, 0x88, 0x01, 0x45, 0x8A] ∧ 0xFF ∉ [0x00, 0x44, 0x88, 0x01, 0x45, 0x8A] ∧
    start.cfg.addrDefaultPolicy = .defaultToA ∧ kept.cfg.addrDefaultPolicy = .keepPrevious := by decide

/-- Each exit: a failed Send, a failed Receive, the default check, the adapter's check. -/
theorem witness_ReadStatusDeliversOnEachExit :
    let f := answering start [st 0xFB]
    let s := answering start [st 0, frame 0x80 0x10 0xE1 0 0 0]
    let n := answering start [st 0, st 0xFF]
    let c := answering (withExt start) [st 0, frame 0x80 0x10 0x00 0 0 0, st 1]
    start.cfg.clockStretch = false ∧ start.h.addr = some 0x44#7 ∧ start.cfg.hasSend = true ∧
    start.cfg.hasRecv = true ∧ f.answerAt 0 = st 0xFB ∧ n.answerAt 1 = st 0xFF ∧
    s.answerAt 0 = st 0 ∧ s.answerAt 1 = frame 0x80 0x10 0xE1 0 0 0 ∧ s.h.crc = .default ∧
    c.h.crc = .ext ∧ c.cfg.hasCrc = true ∧ c.answerAt 2 = st 1 := by decide

theorem witness_InitWithoutARequiredCapability :
    let s := { unwritten with cfg := { unwritten.cfg with hasSend := false } }
    let r := { unwritten with cfg := { unwritten.cfg with hasRecv := false } }
    let d := { unwritten with cfg := { unwritten.cfg with hasDelay := false } }
    s.cfg.clockStretch = false ∧ s.cfg.hasSend = false ∧ r.cfg.hasRecv = false ∧ d.cfg.hasDelay = false := by
  decide

theorem witness_InitWithoutPlatformInit :
    let s := answering unwritten [st 0, st 0]
    let f := answering unwritten [st 0xFB, st 0]
    s.cfg.clockStretch = false ∧ s.cfg.hasInit = false ∧ s.cfg.hasSend = true ∧ s.cfg.hasRecv = true ∧
    s.cfg.hasDelay = true ∧ resolveAddr s.cfg.addrDefaultPolicy s.h.addr 0x8A = some 0x45#7 ∧
    s.answerAt 0 = st 0 ∧ s.answerAt 1 = st 0 ∧ f.answerAt 0 = st 0xFB := by decide

/-- Each clause: the platform init fails, the soft reset fails, both succeed. -/
theorem witness_InitWithPlatformInit :
    let p := { unwritten with cfg := { unwritten.cfg with hasInit := true } }
    p.cfg.clockStretch = false ∧ p.cfg.hasInit = true ∧ p.cfg.hasSend = true ∧ p.cfg.hasRecv = true ∧
    p.cfg.hasDelay = true ∧ resolveAddr p.cfg.addrDefaultPolicy p.h.addr 1 = some 0x45#7 ∧
    (answering p [st 0xFF, st 0, st 0]).answerAt 0 = st 0xFF ∧
    (answering p [st 0, st 0xFB, st 0]).answerAt 1 = st 0xFB ∧
    (answering p [st 0, st 0, st 0]).answerAt 2 = st 0 := by decide

theorem witness_DeInitCallsPlatformDeInit :
    let s := answering { start with cfg := { start.cfg with hasDeInit := true } } [st 2]
    start.cfg.clockStretch = false ∧ start.cfg.hasDeInit = false ∧ s.cfg.clockStretch = false ∧
    s.cfg.hasDeInit = true ∧ s.answerAt 0 = st 2 := by decide

/-- Each clause: a failed Send, the NACK code, another status; both modes. -/
theorem witness_FetchFailuresAreToldApart :
    let art := { start with h := { start.h with mode := some .art } }
    start.cfg.clockStretch = false ∧ start.h.mode = some .periodic ∧ art.h.mode = some .art ∧
    start.h.addr = some 0x44#7 ∧ start.cfg.hasSend = true ∧ start.cfg.hasRecv = true ∧
    (answering start [st 0xFF]).answerAt 0 = st 0xFF ∧
    (answering start [st 0, st 0xFF]).answerAt 1 = st 0xFF ∧ start.cfg.nackCode = 0xFF ∧
    (answering start [st 0, st 0xFB]).answerAt 1 = st 0xFB := by decide

theorem witness_FetchDeliversASample :
    let s := answering start [st 0, frame 0 0 0 0 0 0]
    s.cfg.clockStretch = false ∧ s.h.mode = some .periodic ∧ s.h.addr = some 0x44#7 ∧
    s.cfg.hasSend = true ∧ s.cfg.hasRecv = true ∧ s.h.crc = .default ∧
    s.answerAt 0 = st 0 ∧ s.answerAt 1 = frame 0 0 0 0 0 0 := by decide

/-- Each clause: the temperature fails, the humidity fails, both pass. -/
theorem witness_FetchChecksTemperatureFirst :
    let s := fun a b => answering (withExt start) [st 0, frame 0x80 0x00 0xA2 0x80 0x00 0xA2, st a, st b]
    (s 0 0).cfg.clockStretch = false ∧ (s 0 0).h.mode = some .periodic ∧ (s 0 0).h.addr = some 0x44#7 ∧
    (s 0 0).cfg.hasSend = true ∧ (s 0 0).cfg.hasRecv = true ∧ (s 0 0).h.crc = .ext ∧
    (s 0 0).cfg.hasCrc = true ∧ (s 0 0).answerAt 0 = st 0 ∧
    (s 0 0).answerAt 1 = frame 0x80 0x00 0xA2 0x80 0x00 0xA2 ∧
    (s 7 0).answerAt 2 = st 7 ∧ (s 0 1).answerAt 2 = st 0 ∧ (s 0 1).answerAt 3 = st 1 ∧
    (s 0 0).answerAt 2 = st 0 ∧ (s 0 0).answerAt 3 = st 0 := by decide

theorem witness_SingleShotFailedSendEndsTheRead :
    let s := answering (single .low) [st 0xFB]
    (Repeatability.low, 0x24#8, 0x16#8) ∈ singleShotTable ∧ s.cfg.clockStretch = false ∧
    s.h.mode = some .singleShot ∧ s.h.rep = some .low ∧ s.h.addr = some 0x45#7 ∧ s.cfg.hasSend = true ∧
    s.answerAt 0 = st 0xFB := by decide

/-- A read whose first k Receives fail and whose next gives a frame. -/
def afterFailures (r : Repeatability) (k : Nat) (l : List Answer) : State :=
  answering (single r) (st 0 :: ((List.range k).flatMap fun _ => [st 0xFF, st 0]) ++ l)

theorem witness_SingleShotTwentyFailuresGiveFail :
    SingleShotSent (afterFailures .low 20 []) 0x45 (.low, 0x24, 0x16) ∧
    ∀ j < 20, (afterFailures .low 20 []).statusAt (1 + 2 * j) ≠ some 0 := by
  unfold SingleShotSent AdapterReturns
  decide

theorem witness_SingleShotZeroCrcGuardGivesFail :
    let s := afterFailures .high 0 [frame 0x00 0xAC 0x00 0x00 0xAC 0x00]
    SingleShotSent s 0x45 (.high, 0x24, 0x00) ∧
    s.answerAt (1 + 2 * 0) = frame 0x00 0xAC 0x00 0x00 0xAC 0x00 := by
  unfold SingleShotSent AdapterReturns
  decide

/-- The last attempt, 19 having failed. -/
theorem witness_SingleShotDeliversASample :
    let s := afterFailures .low 19 [frame 0x00 0x00 0x81 0xFF 0xFF 0x00]
    SingleShotSent s 0x45 (.low, 0x24, 0x16) ∧ s.h.crc = .default ∧ 19 < 20 ∧
    (∀ j < 19, s.statusAt (1 + 2 * j) ≠ some 0) ∧
    s.answerAt (1 + 2 * 19) = frame 0x00 0x00 0x81 0xFF 0xFF 0x00 ∧ (0x81#8 ≠ 0 ∨ 0x00#8 ≠ 0) := by
  unfold SingleShotSent AdapterReturns
  decide

/-- Each clause: both checks pass, the humidity fails. -/
theorem witness_SingleShotChecksTemperatureFirst :
    let s := fun a => withExt (afterFailures .high 3 [frame 0x66 0x66 0x93 0x80 0x00 0xA2, st 0, st a])
    SingleShotSent (s 0) 0x45 (.high, 0x24, 0x00) ∧ SingleShotSent (s 1) 0x45 (.high, 0x24, 0x00) ∧
    (s 0).h.crc = .ext ∧ (s 0).cfg.hasCrc = true ∧ (∀ j < 3, (s 0).statusAt (1 + 2 * j) ≠ some 0) ∧
    (s 0).answerAt (1 + 2 * 3) = frame 0x66 0x66 0x93 0x80 0x00 0xA2 ∧
    (s 0).statusAt (2 + 2 * 3) = some 0 ∧ (s 0).statusAt (3 + 2 * 3) = some 0 ∧
    (s 1).statusAt (3 + 2 * 3) = some 1 := by
  unfold SingleShotSent AdapterReturns
  decide

theorem witness_ReservedModeGivesInvalidParam :
    let s := { start with h := { start.h with mode := some .reserved } }
    s.cfg.clockStretch = false ∧ s.h.mode = some .reserved := by decide

theorem witness_ReservedNumbersGiveInvalidParam :
    0xA ≤ ((0xA000#16).extractLsb' 12 4).toNat ∧ 0xA ≤ ((0xFFFF#16).extractLsb' 12 4).toNat ∧
    start.cfg.clockStretch = false := by decide

theorem witness_WireCommandsSendTheirCode :
    (Instr.cmdSoftReset, 0x30#8, 0xA2#8) ∈ wireTable ∧ start.cfg.clockStretch = false ∧
    start.h.addr = some 0x44#7 ∧ start.cfg.hasSend = true ∧
    (answering start [st 0xFF]).answerAt 0 = st 0xFF := by decide

theorem witness_ClockStretchIsRefused :
    { start with cfg := { start.cfg with clockStretch := true } }.cfg.clockStretch = true := by decide

/-- Each clause: a block with reset values; no address; no address and a legal read; an unresolved selector, with
and without platform init; no mode; no repeatability; the reserved repeatability; no CRC binding, on a fetched frame
with both CRC bytes zero too. -/
theorem witness_RegistersWithoutValueFault :
    let keep := { unwritten with cfg := { unwritten.cfg with addrDefaultPolicy := .keepPrevious } }
    let plat := { keep with cfg := { keep.cfg with hasInit := true } }
    let u := answering { start with h := { start.h with crc := .unbound } } [st 0, frame 1 2 3 4 5 6]
    unwritten.cfg.clockStretch = false ∧ unwritten.h.addr = none ∧ unwritten.h.mode = none ∧
    Instr.setPeriodic 4 2 ∈ sendsFirst 4 2 1 ∧ Instr.cmdART ∈ sendsFirst 4 2 1 ∧
    { start with h := { start.h with addr := none } }.h.mode = some .periodic ∧
    resolveAddr keep.cfg.addrDefaultPolicy keep.h.addr 2 = none ∧ keep.cfg.hasInit = false ∧
    { start with h := { start.h with mode := some .singleShot, rep := none } }.h.rep = none ∧
    (single .reserved).h.mode = some .singleShot ∧ (single .reserved).h.rep = some .reserved ∧
    u.h.crc = .unbound ∧ u.h.addr = some 0x44#7 ∧ u.cfg.hasSend = true ∧ u.cfg.hasRecv = true ∧
    u.answerAt 0 = st 0 ∧ u.answerAt 1 = frame 1 2 3 4 5 6 ∧
    u.h.mode = some .periodic ∧ (answering u [st 0, frame 1 2 0 4 5 0]).answerAt 1 = frame 1 2 0 4 5 0 ∧
    resolveAddr plat.cfg.addrDefaultPolicy plat.h.addr 2 = none ∧ plat.cfg.hasInit = true ∧
    (answering plat [st 0]).answerAt 0 = st 0 ∧ (answering plat [st 7]).answerAt 0 = st 7 ∧
    State.reset.cfg.powerOnRegisters = .resetValues := by decide

theorem reset_inv : Inv State.reset := by constructor <;> decide

/-- Each clause: no Send, no Receive, no Delay after a failed Receive, no CRC check behind `Ext`. -/
theorem witness_UnboundCapabilitiesFault :
    let noSend := { start with cfg := { start.cfg with hasSend := false } }
    let noRecv := answering { start with cfg := { start.cfg with hasRecv := false } } [st 0]
    let noDelay := answering { single .low with cfg := { start.cfg with hasDelay := false } } [st 0, st 1]
    let noCrc := answering { start with h := { start.h with crc := .ext } } [st 0, frame 1 2 3 0 0 0]
    noSend.cfg.clockStretch = false ∧ noSend.h.addr = some 0x44#7 ∧ noSend.cfg.hasSend = false ∧
    noRecv.cfg.hasSend = true ∧ noRecv.cfg.hasRecv = false ∧ noRecv.answerAt 0 = st 0 ∧
    noDelay.cfg.hasDelay = false ∧ noDelay.h.mode = some .singleShot ∧ noDelay.h.rep = some .low ∧
    noDelay.answerAt 1 = st 1 ∧
    noCrc.h.crc = .ext ∧ noCrc.cfg.hasCrc = false ∧ noCrc.answerAt 1 = frame 1 2 3 0 0 0 := by decide

theorem witness_ReadSampleSends :
    ReadSampleSends start ∧ ReadSampleSends (single .low) ∧ ReadSampleSends (single .high) := by
  unfold ReadSampleSends
  decide

theorem start_inv : Inv start := by constructor <;> decide

theorem start_ready : Ready start := by constructor <;> decide

theorem witness_EveryStepKeepsTheInvariant :
    Inv (start.setHost [.rst]) ∧ ∃ t, step (start.setHost [.rst]) = .next t :=
  ⟨by constructor <;> decide, _, rfl⟩

theorem witness_InitOkMakesTheBlockReady :
    Inv (answering unwritten [st 0, st 0]) ∧
    ∃ t, exec (.init 0) (answering unwritten [st 0, st 0]) = .next t ∧ t.seq = .idle ∧ t.res = some .ok :=
  ⟨by constructor <;> decide, _, rfl, by decide⟩

theorem witness_ReadyStatesNeverFault :
    Ready start ∧ Instr.readSample ∉
      [Instr.cmdSingleShotStretchLow, .cmdSingleShotStretchMedium, .cmdSingleShotStretchHigh] :=
  ⟨start_ready, by decide⟩

theorem witness_EveryStepKeepsReadiness :
    Ready (start.setHost [.request 0x9010]) ∧
    (∀ rest, (start.setHost [.request 0x9010]).host ≠ .rst :: rest) ∧
    ∃ t, step (start.setHost [.request 0x9010]) = .next t :=
  ⟨by constructor <;> decide, by simp [State.setHost], _, rfl⟩

theorem witness_ReturningAdapterEndsEveryOperation :
    Ready start ∧ AdapterReturns start ∧ isRequest .readSample = true :=
  ⟨start_ready, by unfold AdapterReturns; decide, by decide⟩

theorem witness_ResultsFollowTheTable :
    isRequest .setART = true ∧
    ∃ t, exec .setART (answering start [st 1]) = .next t ∧ t.seq = .idle :=
  ⟨by decide, _, rfl, by decide⟩

/-- Each side: the NACK code in Periodic mode, and a request that cannot give `NoData`. -/
theorem witness_NoDataHasOneCause :
    isRequest .readSample = true ∧
    (∃ t, exec .readSample (answering start [st 0, st 0xFF]) = .next t ∧ t.seq = .idle ∧
      t.res = some .noData) ∧
    ∃ t, exec .readStatus (answering start [st 0, st 0xFF]) = .next t ∧ t.seq = .idle ∧
      t.res ≠ some .noData :=
  ⟨by decide, ⟨_, rfl, by decide⟩, _, rfl, by decide⟩

theorem witness_ACallThatNeverReturnsHangsTheBlock :
    ∃ t, exec .readSample (answering (single .low) [st 0, .never]) = .next t ∧ t.seq ≠ .idle ∧
      ∃ e ∈ t.trace, e.reply = .never :=
  ⟨_, rfl, by decide, by decide⟩

/-- Each way: a failed Send, and a call that never returns. -/
theorem witness_FailedModeSettingKeepsTheHandle :
    (∃ t, exec (.setPeriodic 4 0) (answering start [st 1]) = .next t ∧ t.res ≠ some .ok) ∧
    ∃ t, exec .setART (answering start [.never]) = .next t ∧ t.seq ≠ .idle :=
  ⟨⟨_, rfl, by decide⟩, _, rfl, by decide⟩

theorem witness_HandleIsWrittenByItsOwnersOnly :
    ∃ t, exec (.setHeater 15) (answering start [st 0]) = .next t :=
  ⟨_, rfl⟩

/-- Each clause. -/
theorem witness_UnownedHandleFieldsAreKept :
    (∃ t, exec (.setSingleShot 2) (answering start [st 0]) = .next t) ∧
    (∃ t, exec (.setPeriodic 4 2) (answering start [st 0]) = .next t) ∧
    (∃ t, exec .setART (answering start [st 0]) = .next t) ∧
    (∃ t, exec (.setAddressI2C 255) start = .next t) ∧
    ∃ t, exec (.init 255) (answering start [st 0, st 0]) = .next t :=
  ⟨⟨_, rfl⟩, ⟨_, rfl⟩, ⟨_, rfl⟩, ⟨_, rfl⟩, _, rfl⟩

theorem witness_OutputsAreWrittenByTheirOwnersOnly :
    (∃ t, exec .readStatus (answering start [st 0, st 0]) = .next t) ∧
    ∃ t, exec .readSample (answering start [st 0, st 0xFB]) = .next t :=
  ⟨⟨_, rfl⟩, _, rfl⟩

/-- Each clause: an `Ok`, a `Fail` and a `CrcError`. -/
theorem witness_SampleAfterEachResult :
    (∃ t, exec .readSample (answering start [st 0, frame 1 2 3 4 5 6]) = .next t ∧ t.seq = .idle ∧
      t.res = some .ok) ∧
    (∃ t, exec .readSample (answering start [st 0, st 0xFB]) = .next t ∧ t.seq = .idle ∧
      t.res = some .fail) ∧
    ∃ t, exec .readSample (answering (withExt start) [st 0, st 0, st 1]) = .next t ∧ t.seq = .idle ∧
      t.res = some .crcError :=
  ⟨⟨_, rfl, by decide⟩, ⟨_, rfl, by decide⟩, _, rfl, by decide⟩

theorem witness_CallsAreRecordedInOrder :
    ∃ t, exec .clearStatus (answering start [st 0]) = .next t ∧ t.seq = .idle :=
  ⟨_, rfl, by decide⟩

theorem witness_EveryCallIsLegal :
    Inv (answering start [st 0, st 0xFB]) ∧
    ∃ t, exec .readSample (answering start [st 0, st 0xFB]) = .next t :=
  ⟨by constructor <;> decide, _, rfl⟩

theorem witness_CallsAreBounded :
    ∃ t, exec .readSample (afterFailures .low 20 []) = .next t ∧ t.trace.length = 41 :=
  ⟨_, rfl, by decide⟩

theorem witness_SpeedIsNeverRead : ∀ sp rp, Instr.readSample ≠ .setPeriodic sp rp := by
  intro sp rp h
  cases h

/-- The ends of the range, for the clauses over two counts. -/
theorem witness_CelsiusTransferFunction :
    (0 : Word).toNat < (65535 : Word).toNat ∧ (65535 : Word).toNat = (65534 : Word).toNat + 1 := by decide

theorem witness_HumidityTransferFunction : (1 : Word).toNat = (0 : Word).toNat + 1 := by decide

end Sys2Proof.Tests
end

section
/-! The bus interface of `20_memory.md`: the byte order of a command (R38, R39). -/

namespace Sys2Proof.Machine

/-- The test on a status as the obligations write it. -/
theorem statusOk_eq_decide (st : Status) : statusOk st = decide (st = 0) := rfl

/-- The state after a Send, field by field: the two bytes stay in `TXBUF` (R38), the trace has the one call
more, and one answer is used up. -/
theorem afterSend_eq (s : State) (a : BusAddr) (b0 b1 : Byte) (st : Status) :
    s.afterSend a b0 b1 st =
      { s with
        txbuf := ⟨b0, b1⟩
        trace := s.trace ++ [⟨.send a b0 b1, .status st⟩]
        adapter := s.adapter.tail
        calls := s.calls + 1 } := rfl

/-- Settles O9: what `writeCommand` does when its Send returns, with the two halves of the code and the state
after the Send written out. -/
theorem writeCommandSendsHighByteFirst : Obligations.WriteCommandSendsHighByteFirst := by
  intro cmd s k a st buf ha hs hr
  refine ⟨?_, by decide⟩
  rw [writeCommand_returns ha hs hr, statusOk_eq_decide, afterSend_eq, hiByte, loByte]

end Sys2Proof.Machine
end

section
/-! The converter of `41_sample_acquisition.md`: the Celsius and humidity transfer functions (R88, R90). Both are
affine in the share of full scale `count / 65535`, which lies between 0 and 1. -/

namespace Sys2Proof.Machine

theorem word_div_fullScale_nonneg (w : Word) : 0 ≤ (w.toNat : Rat) / 65535 := by positivity

theorem word_div_fullScale_le_one (w : Word) : (w.toNat : Rat) / 65535 ≤ 1 := by
  have hw : w.toNat ≤ 65535 := Nat.le_of_lt_succ w.isLt
  rw [div_le_one (by norm_num)]
  exact_mod_cast hw

/-! ### Celsius -/

/-- The second form of R88. -/
theorem celsiusQ_eq_div (t : Word) : celsiusQ t = (175 * (t.toNat : Rat) - 45 * 65535) / 65535 := by
  unfold celsiusQ
  ring

/-- The constant slope of R88, for counts any distance apart. -/
theorem celsiusQ_sub (t u : Word) :
    celsiusQ u - celsiusQ t = ((u.toNat : Rat) - t.toNat) * (175 / 65535) := by
  unfold celsiusQ
  ring

theorem celsiusQ_ge (t : Word) : -45 ≤ celsiusQ t := by
  have h := word_div_fullScale_nonneg t
  unfold celsiusQ
  linarith

theorem celsiusQ_le (t : Word) : celsiusQ t ≤ 130 := by
  have h := word_div_fullScale_le_one t
  unfold celsiusQ
  linarith

theorem celsiusQ_lt_celsiusQ {t u : Word} (h : t.toNat < u.toNat) : celsiusQ t < celsiusQ u := by
  have hpos : (0 : Rat) < (u.toNat : Rat) - t.toNat := sub_pos.mpr (by exact_mod_cast h)
  rw [← sub_pos, celsiusQ_sub]
  positivity

theorem celsiusQ_step {t u : Word} (h : u.toNat = t.toNat + 1) :
    celsiusQ u - celsiusQ t = 175 / 65535 := by
  rw [celsiusQ_sub, h]
  push_cast
  ring

/-- Settles O58: the range from the share of full scale, growth and step from the slope, the four points by
evaluation. -/
theorem celsiusTransferFunction : Obligations.CelsiusTransferFunction := by
  refine ⟨fun t => ⟨rfl, celsiusQ_eq_div t, ?_, celsiusQ_ge t, celsiusQ_le t⟩,
    fun _ _ => celsiusQ_lt_celsiusQ, fun _ _ => celsiusQ_step, ?_, ?_, ?_, ?_⟩
  · rw [celsiusQ_eq_div]
    norm_num
  all_goals
    simp only [celsiusQ, BitVec.reduceToNat]
    norm_num

/-! ### Humidity -/

/-- The constant slope of R90, for counts any distance apart. -/
theorem humidityQ_sub (h u : Word) :
    humidityQ u - humidityQ h = ((u.toNat : Rat) - h.toNat) * (100 / 65535) := by
  unfold humidityQ
  ring

theorem humidityQ_nonneg (h : Word) : 0 ≤ humidityQ h :=
  mul_nonneg (word_div_fullScale_nonneg h) (by norm_num)

theorem humidityQ_le (h : Word) : humidityQ h ≤ 100 :=
  mul_le_of_le_one_left (by norm_num) (word_div_fullScale_le_one h)

theorem humidityQ_step {h u : Word} (hu : u.toNat = h.toNat + 1) :
    humidityQ u - humidityQ h = 100 / 65535 := by
  rw [humidityQ_sub, hu]
  push_cast
  ring

/-- Settles O60: the bounds need no clamp because the share of full scale lies between 0 and 1. -/
theorem humidityTransferFunction : Obligations.HumidityTransferFunction := by
  refine ⟨fun h => ⟨rfl, humidityQ_nonneg h, humidityQ_le h⟩, fun _ _ => humidityQ_step, ?_, ?_, ?_⟩
  all_goals
    simp only [humidityQ, BitVec.reduceToNat]
    norm_num

end Sys2Proof.Machine
end

section
/-! The results of `60_exceptions.md`: which result each operation can return (R107), and the single cause of
`NoData` (R106). -/

namespace Sys2Proof.Machine

/-! ### Ending with one of some results -/

/-- What ends here, if it does end, ends with a result that `R` allows. -/
def EndsWith (R : Result → Prop) : Out → Prop :=
  AllNext (fun t => t.seq = .idle → ∃ r, t.res = some r ∧ R r) fun _ => True

namespace EndsWith
variable {R : Result → Prop} {s t : State}

theorem finish {r : Result} (h : R r) : EndsWith R (.next (s.finish r)) := fun _ => ⟨r, rfl, h⟩

theorem busy (h : s.seq ≠ .idle) : EndsWith R (.next s) := fun hi => absurd hi h

theorem hungSend {op : Operation} {l : Nat} {a : BusAddr} {w : Word} :
    EndsWith R (.next ((s.goto op l).hungSend a w)) := busy (by simp [State.hungSend])

theorem hungCall {op : Operation} {l : Nat} {e : Event} :
    EndsWith R (.next ((s.goto op l).record e)) := busy (by simp)

theorem allowed_of_res {o : Out} {r : Result} (h : EndsWith R o) (ho : o = .next t) (hi : t.seq = .idle)
    (hr : t.res = some r) : R r := by
  obtain ⟨q, hq, hR⟩ := h.of_eq ho hi
  obtain rfl : q = r := Option.some.inj (hq.symm.trans hr)
  exact hR

end EndsWith

/-! ### One row of R107 per operation -/

section Rows
variable {s : State}

theorem sampleTail_endsWith {R : Result → Prop} (hok : R .ok) (hcrc : s.h.crc = .ext → R .crcError) :
    EndsWith R (sampleTail s) :=
  sampleTail_all (P := EndsWith R) (fun _ _ => trivial) (fun _ _ => .hungCall)
    (fun _ h _ => .finish (hcrc h)) (fun _ _ => .hungCall) (fun _ h _ => .finish (hcrc h))
    (fun _ => .finish hok) fun _ => .finish hok

theorem fetchPath_endsWith {R : Result → Prop} (hok : R .ok) (hfail : R .fail) (hnack : R .noData)
    (hcrc : s.h.crc = .ext → R .crcError) : EndsWith R (fetchPath s) :=
  fetchPath_all (P := EndsWith R) (fun _ _ => trivial) (fun _ _ _ => .hungSend)
    (fun _ _ _ _ => .finish hfail) (fun _ _ _ => .hungCall) (fun _ _ _ _ _ _ => .finish hnack)
    (fun _ _ _ _ _ _ => .finish hfail) fun _ _ _ => sampleTail_endsWith hok hcrc

/-- Before and after an attempt of the poll loop the handle, so `H.CRC`, is as it was. -/
theorem singleShotPath_endsWith {R : Result → Prop} (hok : R .ok) (hfail : R .fail)
    (hcrc : s.h.crc = .ext → R .crcError) : EndsWith R (singleShotPath s) :=
  singleShotPath_all (P := EndsWith R) (J := fun _ t => t.h = s.h) (F := fun _ t => t.h = s.h)
    (fun _ _ => trivial) (fun _ _ _ _ _ => trivial) (fun _ _ _ _ _ => .hungSend)
    (fun _ _ _ _ _ _ => .finish hfail) (fun _ _ _ _ => rfl) (fun _ _ _ _ _ _ => .hungCall)
    (fun _ _ _ _ _ _ => .finish hfail)
    (fun _ _ _ _ _ hh => sampleTail_endsWith hok fun h => hcrc (hh ▸ h))
    (fun _ _ _ _ _ _ _ hh => hh) (fun _ _ _ _ => .hungCall) (fun _ _ _ hh => hh)
    fun _ _ => .finish hfail

theorem init_mayReturn (sel : Nat) :
    EndsWith (mayReturn s (.init sel) · = true) (exec (.init sel) s) :=
  init_all (P := EndsWith _) (fun _ => trivial) (fun _ => .finish rfl) (fun _ _ => .hungCall)
    (fun _ _ _ => .finish rfl) fun _ _ _ =>
      initBaseline_all (P := EndsWith _) (fun _ _ => trivial) (fun _ _ _ => .hungSend)
        (fun _ _ _ _ => .finish rfl) (fun _ _ _ => .hungCall) fun _ _ _ => .finish rfl

theorem deInit_mayReturn : EndsWith (mayReturn s .deInit · = true) (exec .deInit s) :=
  deInit_all (P := EndsWith _) (fun _ => trivial) (fun _ _ => .hungCall)
    (fun _ h _ => .finish (by simp [mayReturn, h])) (fun _ => .finish rfl) fun _ => .finish rfl

theorem setSingleShot_mayReturn (rep : Nat) :
    EndsWith (mayReturn s (.setSingleShot rep) · = true) (exec (.setSingleShot rep) s) :=
  setSingleShot_all (P := EndsWith _) (fun _ => trivial) (fun _ _ => trivial) (fun _ => .finish rfl)
    (fun _ _ _ => .hungSend) (fun _ _ _ _ => .finish rfl) fun _ _ _ _ => .finish rfl

theorem setPeriodic_mayReturn (speed rep : Nat) :
    EndsWith (mayReturn s (.setPeriodic speed rep) · = true) (exec (.setPeriodic speed rep) s) :=
  setPeriodic_all (P := EndsWith _) (fun _ => trivial) (fun _ _ => trivial) (fun _ => .finish rfl)
    (fun _ _ _ _ _ => .hungSend) (fun _ _ _ _ _ _ => .finish rfl) fun _ _ _ _ _ _ _ _ => .finish rfl

theorem setART_mayReturn : EndsWith (mayReturn s .setART · = true) (exec .setART s) :=
  setART_all (P := EndsWith _) (fun _ => trivial) (fun _ _ => trivial) (fun _ _ _ => .hungSend)
    (fun _ _ _ _ => .finish rfl) fun _ _ => .finish rfl

theorem mayReturn_fetch (hm : s.h.mode = some .periodic ∨ s.h.mode = some .art) (r : Result) :
    mayReturn s .readSample r =
      (r == .ok || r == .fail || r == .noData || (r == .crcError && s.h.crc == .ext)) := by
  rcases hm with hm | hm <;> simp only [mayReturn, hm]

theorem readSample_mayReturn : EndsWith (mayReturn s .readSample · = true) (exec .readSample s) := by
  refine readSample_all (P := EndsWith _) (fun _ => trivial) (fun _ _ => trivial) (fun hm => ?_)
    (fun hm => ?_) fun hm => ?_
  · exact .finish (by simp [mayReturn, hm])
  · exact singleShotPath_endsWith (by simp [mayReturn, hm]) (by simp [mayReturn, hm]) fun h => by
      simp [mayReturn, hm, show s.h.crc = .ext from h]
  · have row := mayReturn_fetch hm
    exact fetchPath_endsWith (by simp [row]) (by simp [row]) (by simp [row]) fun h => by
      simp [row, show s.h.crc = .ext from h]

theorem readStatus_mayReturn : EndsWith (mayReturn s .readStatus · = true) (exec .readStatus s) := by
  refine readStatus_all (P := EndsWith _) (fun _ => trivial) (fun _ _ => trivial) (fun _ _ _ => .hungSend)
    (fun _ _ _ _ => .finish rfl) (fun _ _ _ => .hungCall) (fun _ _ _ _ _ => .finish rfl)
    (fun _ _ _ _ _ _ _ => .hungCall) (fun _ _ _ _ st _ h => .finish ?_) fun _ _ _ _ _ => .finish rfl
  split
  · rfl
  · simp [mayReturn, h]

theorem clearStatus_mayReturn : EndsWith (mayReturn s .clearStatus · = true) (exec .clearStatus s) :=
  clearStatus_all (P := EndsWith _) (fun _ => trivial) (fun _ _ => trivial) (fun _ _ _ => .hungSend)
    (fun _ _ _ _ => .finish rfl) fun _ _ => .finish rfl

theorem setHeater_mayReturn (e : Nat) :
    EndsWith (mayReturn s (.setHeater e) · = true) (exec (.setHeater e) s) :=
  setHeater_all (P := EndsWith _) (fun _ => trivial) (fun _ _ => trivial) (fun _ _ _ _ _ => .hungSend)
    (fun _ _ _ _ _ _ => .finish rfl) fun _ _ _ _ => .finish rfl

theorem setAddressI2C_mayReturn (sel : Nat) :
    EndsWith (mayReturn s (.setAddressI2C sel) · = true) (exec (.setAddressI2C sel) s) :=
  setAddressI2C_all (P := EndsWith _) (fun _ => trivial) (.finish rfl)

/-- Every request ends, if it ends, with a result of its row. -/
theorem exec_mayReturn {i : Instr} (hi : isRequest i = true) :
    EndsWith (mayReturn s i · = true) (exec i s) := by
  have not_command : i.format ≠ .cmd16 := by
    rw [show i.format = .req16 by simpa [isRequest] using hi]
    decide
  rcases exec_kinds i with ⟨sel, rfl⟩ | rfl | ⟨rep, rfl⟩ | ⟨speed, rep, rfl⟩ | rfl | rfl | rfl | rfl |
    ⟨e, rfl⟩ | ⟨sel, rfl⟩ | ⟨hx, hm⟩ | ⟨hc, _⟩ | ⟨hc, _⟩
  · exact init_mayReturn sel
  · exact deInit_mayReturn
  · exact setSingleShot_mayReturn rep
  · exact setPeriodic_mayReturn speed rep
  · exact setART_mayReturn
  · exact readSample_mayReturn
  · exact readStatus_mayReturn
  · exact clearStatus_mayReturn
  · exact setHeater_mayReturn e
  · exact setAddressI2C_mayReturn sel
  · have hr : mayReturn s i .invalidParam = true := by
      simp only [List.mem_cons, List.not_mem_nil, or_false] at hm
      rcases hm with rfl | rfl | rfl | rfl | rfl | rfl <;> rfl
    rw [hx]
    exact reservedOperation_all (P := EndsWith _) (fun _ => trivial) fun _ => .finish hr
  · exact absurd hc not_command
  · exact absurd hc not_command

end Rows

/-! ### The calls of an operation that ended returned -/

section Ended
variable {s t : State}

/-- A call made by a running operation returned, if the operation is over. -/
theorem callAdapter_ended {c : Call} {k : Status → RxBuf → State → Out} (h : callAdapter c s k = .next t)
    (hs : s.seq ≠ .idle) (ht : t.seq = .idle) :
    ∃ st buf, s.answerAt 0 = .returns st buf ∧ k st buf (s.record ⟨c, c.reply st buf⟩) = .next t := by
  cases hb : capabilityBound s.cfg c.capability with
  | false => rw [callAdapter_unbound hb] at h; cases h
  | true =>
    cases ha : s.answerAt 0 with
    | never =>
      rw [callAdapter_never hb ha] at h
      cases h
      exact absurd ht (by simpa using hs)
    | returns st buf => exact ⟨st, buf, rfl, by rwa [callAdapter_returns hb ha] at h⟩

theorem readAddr_next {k : BusAddr → Out} (h : readAddr s k = .next t) : ∃ a, k a = .next t := by
  cases ha : s.h.addr with
  | none => rw [readAddr_none ha] at h; cases h
  | some a => exact ⟨a, by rwa [readAddr_some ha] at h⟩

theorem writeCommand_ended {cmd : Word} {k : Bool → State → Out} (h : writeCommand cmd s k = .next t)
    (hs : s.seq ≠ .idle) (ht : t.seq = .idle) :
    ∃ a st buf, s.answerAt 0 = .returns st buf ∧
      k (statusOk st) (s.afterSend a (hiByte cmd) (loByte cmd) st) = .next t := by
  obtain ⟨a, h⟩ := readAddr_next h
  obtain ⟨st, buf, ha, h⟩ := callAdapter_ended h hs ht
  exact ⟨a, st, buf, ha, h⟩

theorem busRecv_ended {n : Nat} {k : Status → State → Out} (h : busRecv n s k = .next t)
    (hs : s.seq ≠ .idle) (ht : t.seq = .idle) :
    ∃ a st buf, s.answerAt 0 = .returns st buf ∧ k st (s.afterRecv a n st buf) = .next t := by
  obtain ⟨a, h⟩ := readAddr_next h
  obtain ⟨st, buf, ha, h⟩ := callAdapter_ended h hs ht
  exact ⟨a, st, buf, ha, h⟩

/-! ### The cause of NoData -/

theorem statusAt_of_returns {k : Nat} {st : Status} {buf : RxBuf} (h : s.answerAt k = .returns st buf) :
    s.statusAt k = some st := by
  simp [State.statusAt, h]

@[simp] theorem statusAt_goto (op : Operation) (l k : Nat) : (s.goto op l).statusAt k = s.statusAt k := rfl

@[simp] theorem answerAt_afterSend (a : BusAddr) (b0 b1 : Byte) (st : Status) (k : Nat) :
    (s.afterSend a b0 b1 st).answerAt k = s.answerAt (k + 1) := answerAt_record _ _ k

theorem returnResult_res {r : Result} (h : returnResult r s = .next t) : t.res = some r := by
  cases h
  rfl

/-- The three classes, with the test for 0 before the test for the NACK code (R37, R111). -/
theorem classifyRecv_cases (cfg : Config) (st : Status) :
    (classifyRecv cfg st = .recvOk ∧ st = 0) ∨
    (classifyRecv cfg st = .recvNack ∧ st ≠ 0 ∧ st = cfg.nackCode) ∨
    (classifyRecv cfg st = .recvFail ∧ st ≠ 0 ∧ st ≠ cfg.nackCode) := by
  by_cases h0 : st = 0
  · exact .inl ⟨if_pos h0, h0⟩
  · by_cases h1 : st = cfg.nackCode
    · exact .inr (.inl ⟨(if_neg h0).trans (if_pos h1), h0, h1⟩)
    · exact .inr (.inr ⟨(if_neg h0).trans (if_neg h1), h0, h1⟩)

/-- A read that ended on the Periodic and ART path: its result is `NoData` exactly when the second answer, the
Receive's, is the NACK code (R84). -/
theorem fetchPath_noData_iff (h : fetchPath s = .next t) (ht : t.seq = .idle) :
    t.res = some .noData ↔
      s.statusAt 0 = some 0 ∧ s.statusAt 1 ≠ some 0 ∧ s.statusAt 1 = some s.cfg.nackCode := by
  obtain ⟨a, st, _, hsend, h⟩ := writeCommand_ended h (by simp) ht
  rw [show s.statusAt 0 = some st from statusAt_of_returns hsend]
  by_cases h0 : st = 0
  · subst h0
    rw [statusOk_zero, if_pos rfl] at h
    obtain ⟨b, st, buf, hrecv, h⟩ := busRecv_ended h (by simp) ht
    have hst : s.statusAt 1 = some st := statusAt_of_returns (by simpa using hrecv)
    rw [hst]
    rcases classifyRecv_cases s.cfg st with ⟨hc, h1⟩ | ⟨hc, h1, h2⟩ | ⟨hc, h1, h2⟩ <;>
      simp only [afterRecv_cfg, afterSend_cfg, goto_cfg, hc] at h
    · have hne : t.res ≠ some .noData := fun hr =>
        (sampleTail_endsWith (R := (· ≠ .noData)) (by decide) fun _ => by decide).allowed_of_res h ht hr rfl
      exact iff_of_false hne fun ⟨_, hn, _⟩ => hn (congrArg some h1)
    · exact iff_of_true (returnResult_res h) ⟨rfl, mt Option.some.inj h1, congrArg some h2⟩
    · exact iff_of_false (by simp [returnResult_res h]) fun ⟨_, _, hn⟩ => h2 (Option.some.inj hn)
  · rw [if_neg (by rwa [statusOk_iff])] at h
    exact iff_of_false (by simp [returnResult_res h]) fun ⟨hz, _⟩ => h0 (Option.some.inj hz)

/-- A ReadSample that has a next state in Periodic or ART mode took the fetch path (R80). -/
theorem readSample_next_fetch (hm : s.h.mode = some .periodic ∨ s.h.mode = some .art)
    (h : exec .readSample s = .next t) : fetchPath (s.goto .readSample 1) = .next t :=
  readSample_all (P := fun o => o = .next t → fetchPath (s.goto .readSample 1) = .next t) nofun
    (fun _ _ => nofun) (fun hr => by simp [hr] at hm) (fun hs => by simp [hs] at hm) (fun _ => id) h

end Ended

/-- In the table of R107 `NoData` stands in one row. -/
theorem mayReturn_noData {s : State} {i : Instr} (h : mayReturn s i .noData = true) :
    i = .readSample ∧ (s.h.mode = some .periodic ∨ s.h.mode = some .art) := by
  cases i with
  | readSample =>
    refine ⟨rfl, ?_⟩
    cases hm : s.h.mode with
    | none => simp [mayReturn, hm] at h
    | some m => cases m <;> simp [mayReturn, hm] at h ⊢
  | _ => simp [mayReturn] at h

/-- Settles O45: outside the row of R107 that allows `NoData` neither side holds; in it the fetch path decides. -/
theorem noDataHasOneCause : Obligations.NoDataHasOneCause := by
  intro s t i hi he ht
  by_cases hrow : i = .readSample ∧ (s.h.mode = some .periodic ∨ s.h.mode = some .art)
  · obtain ⟨rfl, hm⟩ := hrow
    simpa [hm] using fetchPath_noData_iff (readSample_next_fetch hm he) ht
  · have hne : t.res ≠ some .noData := fun hr =>
      hrow (mayReturn_noData ((exec_mayReturn hi).allowed_of_res he ht hr))
    exact iff_of_false hne fun h => hrow ⟨h.1, h.2.1⟩

end Sys2Proof.Machine
end

section
/-! The encodings of `30_encoding.md`: the request word and the command table, each decoded by the decoder of its own
space (R53 to R72). -/

namespace Sys2Proof

/-! ### Commands -/

theorem decodeCommand_word {i : Instr} (h : i.format = .cmd16) : decodeCommand i.word = some i := by
  cases i with
  | init | deInit | setSingleShot | setPeriodic | setART | readSample | readStatus | clearStatus | setHeater
  | setAddressI2C => cases h
  | reservedOpA | reservedOpB | reservedOpC | reservedOpD | reservedOpE | reservedOpF => cases h
  | _ => decide

/-- Each row of the command table is the instruction of its own code. -/
theorem commandRows_word : ∀ row ∈ commandRows, row.instr.format = .cmd16 ∧ row.instr.word = row.code := by
  decide

/-- Settles O3: a found row carries the code looked for, and is the row of the instruction's own code. -/
theorem commandDecoderMatchesAllSixteenBits : Obligations.CommandDecoderMatchesAllSixteenBits := by
  intro w i
  constructor
  · intro h
    obtain ⟨row, hfind, rfl⟩ := Option.map_eq_some_iff.1 h
    obtain ⟨hformat, hword⟩ := commandRows_word row (List.mem_of_find?_eq_some hfind)
    have hcode : row.code = w := by simpa using List.find?_some hfind
    exact ⟨hformat, hword.trans hcode⟩
  · rintro ⟨hformat, rfl⟩
    exact decodeCommand_word hformat

/-! ### Requests -/

/-- A request decodes by its three fields. -/
theorem decodeRequest_congr {w w' : Word} (hop : reqOp w = reqOp w')
    (ha : reqOp w ∈ [0, 3, 9] → reqA w = reqA w') (hb : reqOp w ∈ [2, 3, 8] → reqB w = reqB w') :
    decodeRequest w = decodeRequest w' := by
  unfold decodeRequest
  rw [← hop]
  split <;> simp_all

/-- Settles O2: the decoder looks at the operation number, and at a field only where the operation uses it. -/
theorem ignoredRequestFieldsHaveNoEffect : Obligations.IgnoredRequestFieldsHaveNoEffect := by
  intro w w' hop ha hb
  refine decodeRequest_congr (congrArg BitVec.toNat hop) (fun h => congrArg BitVec.toNat (ha ?_))
    fun h => congrArg BitVec.toNat (hb ?_)
  all_goals
    simp only [List.mem_cons, List.not_mem_nil, or_false, reqOp] at h ⊢
    bv_omega

/-- A request whose operands fit their fields is decoded from its own word. -/
theorem decodeRequest_word {i : Instr} (h : i.format = .req16) (hwf : i.wf = true) :
    decodeRequest i.word = i := by
  have fields {op a b : Nat} (ho : op < 16) (ha : fitsA a = true) (hb : fitsB b = true) :=
    reqWord_fields ho (of_decide_eq_true ha) (of_decide_eq_true hb)
  cases i with
  | init selector =>
    obtain ⟨hop, ha, -⟩ := fields (op := 0) (b := 0) (by decide) hwf (by decide)
    simp [Instr.word, decodeRequest, hop, ha]
  | setSingleShot rep =>
    obtain ⟨hop, -, hb⟩ := fields (op := 2) (a := 0) (by decide) (by decide) hwf
    simp [Instr.word, decodeRequest, hop, hb]
  | setPeriodic speed rep =>
    obtain ⟨hspeed, hrep⟩ := Bool.and_eq_true_iff.1 hwf
    obtain ⟨hop, ha, hb⟩ := fields (op := 3) (by decide) hspeed hrep
    simp [Instr.word, decodeRequest, hop, ha, hb]
  | setHeater enabled =>
    obtain ⟨hop, -, hb⟩ := fields (op := 8) (a := 0) (by decide) (by decide) hwf
    simp [Instr.word, decodeRequest, hop, hb]
  | setAddressI2C selector =>
    obtain ⟨hop, ha, -⟩ := fields (op := 9) (b := 0) (by decide) hwf (by decide)
    simp [Instr.word, decodeRequest, hop, ha]
  | deInit | setART | readSample | readStatus | clearStatus => decide
  | reservedOpA | reservedOpB | reservedOpC | reservedOpD | reservedOpE | reservedOpF => decide
  | _ => cases h

/-! ### Both formats -/

/-- Settles O1: the two bytes make up the word, and each format's decoder reads its own words. -/
theorem decodeInvertsEncode : Obligations.DecodeInvertsEncode := by
  intro i hwf
  cases hf : i.format with
  | req16 => simp only [encode, decode, word16_split, decodeRequest_word hf hwf]
  | cmd16 => simp only [encode, decode, word16_split, decodeCommand_word hf]

/-- Settles O4: each word of the list evaluated. -/
theorem wordsOfTheTablesDecode : Obligations.WordsOfTheTablesDecode := by
  unfold Obligations.WordsOfTheTablesDecode
  decide

/-- An operation number of 0xA or more selects one of the six reserved rows (R69). -/
theorem decodeRequest_reserved {w : Word} (h : 0xA ≤ reqOp w) : decodeRequest w ∈
    [.reservedOpA, .reservedOpB, .reservedOpC, .reservedOpD, .reservedOpE, .reservedOpF] := by
  unfold decodeRequest
  split <;> simp_all

end Sys2Proof
end

section
/-! One step of the machine (`60_exceptions.md` R117, `70_reset_and_hazards.md` R121, R122): what it takes from the
host, by what stands at the head of the host's events. -/

namespace Sys2Proof.Machine

variable {s t : State} {rest : List HostEvent} {w : Word}

theorem step_nothing (h : s.host = []) : step s = .next s := by
  simp only [step, fetch, h]

theorem step_rst (h : s.host = .rst :: rest) : step s = .next (s.setHost rest).hardwareReset := by
  simp only [step, fetch, h]

theorem step_request (h : s.host = .request w :: rest) (hs : s.seq = .idle) :
    step s = exec (decodeRequest w) (s.setHost rest) := by
  simp only [step, fetch, h, hs, decodeEvent, if_true]

theorem step_command (h : s.host = .command w :: rest) (hs : s.seq = .idle) {i : Instr}
    (hi : decodeCommand w = some i) : step s = exec i (s.setHost rest) := by
  simp only [step, fetch, h, hs, decodeEvent, hi, if_true]

theorem step_notACommand (h : s.host = .command w :: rest) (hs : s.seq = .idle)
    (hi : decodeCommand w = none) : step s = .refused .notACommand := by
  simp only [step, fetch, h, hs, decodeEvent, hi, if_true]

theorem step_busy {e : HostEvent} (h : s.host = e :: rest) (hs : s.seq ≠ .idle) (he : e ≠ .rst) :
    step s = .refused .requestWhileBusy := by
  cases e with
  | rst => exact absurd rfl he
  | request w => simp only [step, fetch, h, hs, if_false]
  | command w => simp only [step, fetch, h, hs, if_false]

/-- Everything a step that answers a next state can have done: nothing, a reset, or an instruction. -/
theorem step_next_cases (h : step s = .next t) :
    t = s ∨ (∃ rest, s.host = .rst :: rest ∧ t = (s.setHost rest).hardwareReset) ∨
      ∃ i rest, exec i (s.setHost rest) = .next t := by
  cases hh : s.host with
  | nil =>
    rw [step_nothing hh] at h
    cases h
    exact .inl rfl
  | cons e rest =>
    by_cases he : e = .rst
    · subst he
      rw [step_rst hh] at h
      cases h
      exact .inr (.inl ⟨rest, rfl, rfl⟩)
    · by_cases hs : s.seq = .idle
      · refine .inr (.inr ?_)
        cases e with
        | rst => exact absurd rfl he
        | request w =>
          rw [step_request hh hs] at h
          exact ⟨_, rest, h⟩
        | command w =>
          cases hi : decodeCommand w with
          | none => rw [step_notACommand hh hs hi] at h; cases h
          | some i =>
            rw [step_command hh hs hi] at h
            exact ⟨i, rest, h⟩
      · rw [step_busy hh hs he] at h
        cases h

/-- Settles O5: one rule for each event an idle block can have next. -/
theorem stepRunsThePresentedInstruction : Obligations.StepRunsThePresentedInstruction :=
  fun _ _ _ hs => ⟨fun h => step_request h hs, fun _ h hi => step_command h hs hi,
    fun h hi => step_notACommand h hs hi, step_nothing⟩

/-- Settles O6: a busy block has one rule for every event but the reset input. -/
theorem aBusyBlockRefusesAndStays : Obligations.ABusyBlockRefusesAndStays :=
  fun _ hs => ⟨fun _ _ h => step_busy h hs nofun, fun _ _ h => step_busy h hs nofun, step_nothing⟩

/-- Settles O8: the reset input is the event whose rule does not look at the sequencer. -/
theorem resetInputRestoresPowerOn : Obligations.ResetInputRestoresPowerOn :=
  fun _ _ h => step_rst h

/-- Settles O7: the registers but `H.CRC` are `atPowerOn` of their reset values. -/
theorem powerOnContents : Obligations.PowerOnContents := by
  refine ⟨⟨Config.standard, rfl, rfl⟩, fun c => ⟨rfl, rfl, rfl, rfl, fun hc => ?_, fun hc => ?_⟩⟩
  · simp [State.powerOn, Handle.powerOn, Sample.powerOn, hc]
  · simp [State.powerOn, Handle.powerOn, Sample.powerOn, hc]

end Sys2Proof.Machine
end

section
/-! The invariant of every state (`10_state.md` sections 2 and 6) and readiness (`70_reset_and_hazards.md` R123):
each is kept by every update an instruction makes, and so by every step. -/

namespace Sys2Proof.Machine

variable {s t : State}

/-! ### The invariant under each update -/

/-- An address register that the selectors and the power-on content can give (R10). -/
def legalAddr (a : Reg BusAddr) : Prop := a = none ∨ a = some 0x44#7 ∨ a = some 0x45#7

theorem resolveAddr_cases (p : AddrPolicy) (a : Reg BusAddr) (sel : Nat) :
    resolveAddr p a sel = a ∨ resolveAddr p a sel = some 0x44#7 ∨ resolveAddr p a sel = some 0x45#7 := by
  unfold resolveAddr selectorOperand
  split_ifs
  · exact .inr (.inl rfl)
  · exact .inr (.inr rfl)
  · cases p
    · exact .inr (.inl rfl)
    · exact .inl rfl

theorem resolveAddr_legal {p : AddrPolicy} {a : Reg BusAddr} (h : legalAddr a) (sel : Nat) :
    legalAddr (resolveAddr p a sel) := by
  rcases resolveAddr_cases p a sel with hr | hr | hr
  · rwa [hr]
  · exact .inr (.inl hr)
  · exact .inr (.inr hr)

theorem resolveAddr_ne_none {p : AddrPolicy} {a : Reg BusAddr} (h : a ≠ none) (sel : Nat) :
    resolveAddr p a sel ≠ none := by
  rcases resolveAddr_cases p a sel with hr | hr | hr <;> simp [hr, h]

theorem repOperand_legal {n : Nat} {r : Repeatability} (h : repOperand n = some r) :
    r = .low ∨ r = .medium ∨ r = .high := by
  unfold repOperand at h
  split at h <;> simp_all

theorem speedOperand_legal {n : Nat} {v : Speed} (h : speedOperand n = some v) :
    v ≠ .reserved5 ∧ v ≠ .reserved6 ∧ v ≠ .reserved7 := by
  have hv : v = .mps05 ∨ v = .mps1 ∨ v = .mps2 ∨ v = .mps4 ∨ v = .mps10 := by
    unfold speedOperand at h
    split at h <;> simp_all
  rcases hv with rfl | rfl | rfl | rfl | rfl <;> decide

theorem Inv.setSeq (h : Inv t) (q : Seq) : Inv (t.setSeq q) := { h with }

theorem Inv.setTx (h : Inv t) (a b : Byte) : Inv (t.setTx a b) := { h with }

theorem Inv.setRx (h : Inv t) (b : RxBuf) : Inv (t.setRx b) := { h with }

theorem Inv.setHost (h : Inv t) (l : List HostEvent) : Inv (t.setHost l) := { h with }

theorem Inv.setPollCnt (h : Inv t) {n : Nat} (hn : n ≤ nPoll) : Inv (t.setPollCnt (BitVec.ofNat 5 n)) :=
  { h with poll := (Nat.mod_le n _).trans hn }

theorem Inv.record (h : Inv t) (e : Event) : Inv (t.record e) :=
  { h with counted := by simp [h.counted] }

theorem Inv.setRes (h : Inv t) (r : Result) : Inv (t.setRes r) :=
  { h with held := fun hc => by simp_all [EveryRegisterHoldsAValue, h.held hc] }

theorem Inv.setStValue (h : Inv t) (v : Word) : Inv (t.setStValue v) :=
  { h with held := fun hc => by simp_all [EveryRegisterHoldsAValue, h.held hc] }

theorem Inv.setRaw (h : Inv t) (a b : Word) : Inv (t.setRaw a b) :=
  { h with held := fun hc => by simp_all [EveryRegisterHoldsAValue, h.held hc] }

theorem Inv.setDerived (h : Inv t) (a b c : Flt) : Inv (t.setDerived a b c) :=
  { h with held := fun hc => by simp_all [EveryRegisterHoldsAValue, h.held hc] }

theorem Inv.setMode (h : Inv t) {m : Mode} (hm : m ≠ .reserved) : Inv (t.setMode m) :=
  { h with mode := by simpa using hm, held := fun hc => by simp_all [EveryRegisterHoldsAValue, h.held hc] }

theorem Inv.setRep (h : Inv t) {r : Repeatability} (hr : r = .low ∨ r = .medium ∨ r = .high) :
    Inv (t.setRep r) :=
  { h with
    rep := by rcases hr with rfl | rfl | rfl <;> simp
    held := fun hc => by simp_all [EveryRegisterHoldsAValue, h.held hc] }

theorem Inv.setSpeed (h : Inv t) {v : Speed} (hv : v ≠ .reserved5 ∧ v ≠ .reserved6 ∧ v ≠ .reserved7) :
    Inv (t.setSpeed v) :=
  { h with speed := by simpa using hv, held := fun hc => by simp_all [EveryRegisterHoldsAValue, h.held hc] }

theorem Inv.resolve (h : Inv t) (sel : Nat) : Inv (t.resolve sel) :=
  { h with
    addr := resolveAddr_legal h.addr sel
    held := fun hc => ⟨resolveAddr_ne_none (h.held hc).1 sel, (h.held hc).2⟩ }

/-- Only an empty slot is filled, and it is empty only where no CRC capability is bound (R15, R30). -/
theorem Inv.installCrc (h : Inv t) : Inv t.installCrc := by
  cases hc : t.h.crc with
  | unbound =>
    have hi : t.installCrc = t.setCrc .default := by simp only [State.installCrc, hc]
    have hcrc : t.cfg.hasCrc ≠ true := fun hb => by simpa [hc] using h.crc.2 hb
    rw [hi]
    exact { h with crc := by simpa using hcrc }
  | ext | default =>
    have hi : t.installCrc = t := by simp only [State.installCrc, hc]
    rwa [hi]

/-- The power-on state of any configuration with a negative `NACK_CODE`, behind any history. -/
theorem inv_powerOn {c : Config} (hn : c.nackNegative = true) (tr : List Event) (l : List Answer)
    (host : List HostEvent) :
    Inv { State.powerOn c with trace := tr, adapter := l, calls := tr.length, host := host } where
  nack := hn
  addr := (atPowerOn_cases c _).imp_right .inl
  mode := by rcases atPowerOn_cases c Mode.singleShot with h | h <;> simp [State.powerOn, Handle.powerOn, h]
  rep := by rcases atPowerOn_cases c Repeatability.low with h | h <;> simp [State.powerOn, Handle.powerOn, h]
  speed := by rcases atPowerOn_cases c Speed.mps05 with h | h <;> simp [State.powerOn, Handle.powerOn, h]
  crc := by simp [State.powerOn, Handle.powerOn]
  poll := Nat.zero_le _
  counted := rfl
  held h := by
    simp [State.powerOn, Handle.powerOn, Sample.powerOn, EveryRegisterHoldsAValue,
      show c.powerOnRegisters = _ from h]

/-- Settles O38: the reset state is a power-on state with no history. -/
theorem resetMeetsTheInvariant : Obligations.ResetMeetsTheInvariant :=
  inv_powerOn (c := Config.standard) rfl [] [] []

theorem Inv.hardwareReset (h : Inv s) : Inv s.hardwareReset := by
  have hr := inv_powerOn h.nack s.trace s.adapter s.host
  rwa [← h.counted] at hr

/-! ### The invariant under each instruction -/

/-- A stop of an instruction from `s`, if it is a fault, happens where the invariant holds and the fault has a
cause. -/
def StopsInInv (s : State) : Option Fault → Prop
  | some r => ∃ t, Inv t ∧ t.cfg = s.cfg ∧ FaultCause t r
  | none => True

theorem tracks_inv (s : State) : Tracks (fun t => Inv t ∧ t.cfg = s.cfg) Inv (StopsInInv s) where
  seq _ q h := ⟨h.1.setSeq q, h.2⟩
  tx _ a b h := ⟨h.1.setTx a b, h.2⟩
  rx _ b h := ⟨h.1.setRx b, h.2⟩
  poll _ _ hn h := ⟨h.1.setPollCnt hn, h.2⟩
  log _ e _ _ h := ⟨h.1.record e, h.2⟩
  hang _ _ _ _ _ h := h.1.record _
  fin _ r h := (h.1.setRes r).setSeq .idle
  cmd _ h := h.1.setSeq .idle
  conf _ _ _ := trivial
  stop t _ h hc := ⟨t, h.1, h.2, hc⟩

theorem exec_inv (i : Instr) (h : Inv s) : AllNext Inv (StopsInInv s) (exec i s) :=
  (tracks_inv s).exec i
    (fun _ _ a b h => ⟨h.1.setRaw a b, h.2⟩)
    (fun _ _ a b c h => ⟨h.1.setDerived a b c, h.2⟩)
    (fun _ _ v h => ⟨h.1.setStValue v, h.2⟩)
    (fun _ _ _ _ hr h => ⟨(h.1.setMode (by decide)).setRep (repOperand_legal hr), h.2⟩)
    (fun _ _ _ _ _ _ hv hr h =>
      ⟨((h.1.setMode (by decide)).setSpeed (speedOperand_legal hv)).setRep (repOperand_legal hr), h.2⟩)
    (fun _ _ h => ⟨h.1.setMode (by decide), h.2⟩)
    (fun sel _ _ h => ⟨h.1.resolve sel, h.2⟩)
    (fun _ _ t h => ⟨h.1.installCrc, (installCrc_cfg t).trans h.2⟩)
    (fun _ _ _ h => ⟨(h.1.setMode (by decide)).setRep (.inl rfl), h.2⟩)
    (fun _ => trivial) ⟨h, rfl⟩

/-- Settles O39: a step stays, resets or runs an instruction, and each of the three keeps the invariant. -/
theorem everyStepKeepsTheInvariant : Obligations.EveryStepKeepsTheInvariant := by
  intro s t h hstep
  rcases step_next_cases hstep with rfl | ⟨rest, -, rfl⟩ | ⟨i, rest, he⟩
  · exact h
  · exact (h.setHost rest).hardwareReset
  · exact (exec_inv i (h.setHost rest)).of_eq he

/-! ### Readiness -/

theorem Ready.installCrc (h : Ready t) : Ready t.installCrc := by
  have hi : t.installCrc = t := by
    cases hc : t.h.crc with
    | unbound => exact absurd hc h.crc
    | ext | default => simp only [State.installCrc, hc]
  rwa [hi]

theorem Ready.setRep (h : Ready t) {r : Repeatability} (hr : r = .low ∨ r = .medium ∨ r = .high) :
    Ready (t.setRep r) :=
  { h with rep := by simpa using hr }

theorem Ready.setMode (h : Ready t) (m : Mode) : Ready (t.setMode m) := { h with mode := nofun }

theorem Ready.setSpeed (h : Ready t) (v : Speed) : Ready (t.setSpeed v) := { h with }

theorem Ready.setHost (h : Ready t) (l : List HostEvent) : Ready (t.setHost l) := { h with }

theorem Ready.resolve (h : Ready t) (sel : Nat) : Ready (t.resolve sel) :=
  { h with addr := resolveAddr_ne_none h.addr sel }

/-- Along an instruction from a ready state nothing stops it: what `B` allows does not matter. -/
theorem tracks_ready (B : Option Fault → Prop) : Tracks Ready Ready B where
  seq _ _ h := { h with }
  tx _ _ _ h := { h with }
  rx _ _ h := { h with }
  poll _ _ _ h := { h with }
  log _ _ _ _ h := { h with }
  hang _ _ _ _ _ h := { h with }
  fin _ _ h := { h with }
  cmd _ h := { h with }
  conf _ h hc := absurd (h.noStretch.symm.trans hc) (by decide)
  stop _ r h hc := (h.no_cause r hc).elim

theorem exec_ready {B : Option Fault → Prop} (i : Instr) (h : Ready s)
    (hst : i ∈ [Instr.cmdSingleShotStretchLow, .cmdSingleShotStretchMedium, .cmdSingleShotStretchHigh] →
      B none) : AllNext Ready B (exec i s) :=
  (tracks_ready B).exec i (fun _ _ _ _ h => { h with }) (fun _ _ _ _ _ h => { h with })
    (fun _ _ _ h => { h with }) (fun _ _ _ _ hr h => (h.setMode _).setRep (repOperand_legal hr))
    (fun _ _ _ _ _ _ _ hr h => ((h.setMode _).setSpeed _).setRep (repOperand_legal hr))
    (fun _ _ h => h.setMode _) (fun sel _ _ h => h.resolve sel) (fun _ _ _ h => h.installCrc)
    (fun _ _ _ h => (h.setMode _).setRep (.inl rfl)) hst h

/-- Settles O42: without the reset input a step stays or runs an instruction. -/
theorem everyStepKeepsReadiness : Obligations.EveryStepKeepsReadiness := by
  intro s t h hrst hstep
  rcases step_next_cases hstep with rfl | ⟨rest, hh, -⟩ | ⟨i, rest, he⟩
  · exact h
  · exact absurd hh (hrst rest)
  · exact (exec_ready (B := fun _ => True) i (h.setHost rest) fun _ => trivial).of_eq he

/-- Settles O41: with every stop excluded, what keeps readiness has a next state. -/
theorem readyStatesNeverFault : Obligations.ReadyStatesNeverFault := by
  intro s i h hi
  obtain ⟨t, ht, -⟩ := (exec_ready (B := fun _ => False) i h hi).exists
  exact ⟨t, ht⟩

end Sys2Proof.Machine
end

section
/-! The end of an operation (`60_exceptions.md` R107, `70_reset_and_hazards.md` R136) and its calls in the trace
(`20_memory.md` R43, R48, R52). -/

namespace Sys2Proof.Machine

variable {s t : State} {i : Instr}

/-! ### Operations end -/

/-- Settles O44: `exec_mayReturn` says it of every outcome. -/
theorem resultsFollowTheTable : Obligations.ResultsFollowTheTable :=
  fun _ _ _ hi he ht => (exec_mayReturn hi).of_eq he ht

/-- Where every call returns, whatever has a next state has an idle one. -/
theorem exec_idle_of_adapterReturns (i : Instr) (h : AdapterReturns s) :
    AllNext (fun t => t.seq = .idle) (fun _ => True) (exec i s) := by
  have hJ : Tracks AdapterReturns (fun t => t.seq = .idle) fun _ => True :=
    { seq := fun _ _ h => h, tx := fun _ _ _ h => h, rx := fun _ _ h => h, poll := fun _ _ _ h => h
      log := fun _ e _ _ h => h.record e
      hang := fun t _ _ _ hn h => by
        obtain ⟨st, buf, hr⟩ := answerAt_of_returns h 0
        cases hn.symm.trans hr
      fin := fun _ _ _ => rfl, cmd := fun _ _ => rfl, conf := fun _ _ _ => trivial
      stop := fun _ _ _ _ => trivial }
  exact hJ.exec i (fun _ _ _ _ h => h) (fun _ _ _ _ _ h => h) (fun _ _ _ h => h) (fun _ _ _ _ _ h => h)
    (fun _ _ _ _ _ _ _ _ h => h) (fun _ _ h => h) (fun _ _ _ h => h)
    (fun _ _ t h => by rwa [AdapterReturns, installCrc_adapter]) (fun _ _ _ h => h) (fun _ => trivial) h

theorem isRequest_not_stretch (hi : isRequest i = true) :
    i ∉ [Instr.cmdSingleShotStretchLow, .cmdSingleShotStretchMedium, .cmdSingleShotStretchHigh] := by
  intro hm
  simp only [List.mem_cons, List.not_mem_nil, or_false] at hm
  rcases hm with rfl | rfl | rfl <;> cases hi

/-- Settles O43: a ready state has a next state, returning calls make it idle, and an idle one has a result of its
row. -/
theorem returningAdapterEndsEveryOperation : Obligations.ReturningAdapterEndsEveryOperation := by
  intro s i hready hret hi
  obtain ⟨t, he⟩ := readyStatesNeverFault s i hready (isRequest_not_stretch hi)
  have ht := (exec_idle_of_adapterReturns i hret).of_eq he
  obtain ⟨r, hr, hm⟩ := resultsFollowTheTable s t i hi he ht
  exact ⟨t, r, he, ht, hr, hm⟩

/-! ### Calls are recorded -/

/-- From `s` to `t` the calls `l` were made: each is in the trace, is counted and has used up an answer. -/
def Recorded (s t : State) (l : List Event) : Prop :=
  t.trace = s.trace ++ l ∧ t.calls = s.calls + l.length ∧ t.adapter = s.adapter.drop l.length

theorem Recorded.refl (s : State) : Recorded s s [] := ⟨by simp, rfl, rfl⟩

theorem Recorded.record {l : List Event} (h : Recorded s t l) (e : Event) :
    Recorded s (t.record e) (l ++ [e]) := by
  obtain ⟨htrace, hcalls, hadapter⟩ := h
  exact ⟨by simp [htrace], by simp [hcalls, Nat.add_assoc], by simp [hadapter]⟩

/-- Every call returned. -/
def AllReturned (l : List Event) : Prop := ∀ e ∈ l, e.reply ≠ .never

/-- An operation that runs: its calls have returned and it has written no result. -/
def RunningFrom (s t : State) : Prop := t.res = s.res ∧ ∃ l, Recorded s t l ∧ AllReturned l

/-- An operation that is over: it ended with all calls returned, or hangs in its last call without a result. -/
def OverFrom (s t : State) : Prop :=
  ∃ l, Recorded s t l ∧
    ((t.seq = .idle ∧ AllReturned l) ∨
      (t.seq ≠ .idle ∧ t.res = s.res ∧ ∃ c l', l = l' ++ [⟨c, .never⟩] ∧ AllReturned l'))

theorem RunningFrom.record (h : RunningFrom s t) {e : Event} (he : e.reply ≠ .never) :
    RunningFrom s (t.record e) := by
  obtain ⟨hres, l, hl, hret⟩ := h
  refine ⟨hres, l ++ [e], hl.record e, fun x hx => ?_⟩
  rcases List.mem_append.1 hx with hx | hx
  · exact hret x hx
  · rwa [List.mem_singleton.1 hx]

theorem RunningFrom.installCrc (h : RunningFrom s t) : RunningFrom s t.installCrc := by
  simpa [RunningFrom, Recorded] using h

theorem tracks_calls (s : State) : Tracks (RunningFrom s) (OverFrom s) fun _ => True where
  seq _ _ h := h
  tx _ _ _ h := h
  rx _ _ h := h
  poll _ _ _ h := h
  log _ _ _ he h := h.record he
  hang _ c _ hs _ h :=
    h.2.imp' (· ++ [⟨c, .never⟩]) fun l hl => ⟨hl.1.record _, .inr ⟨hs, h.1, c, l, rfl, hl.2⟩⟩
  fin _ _ h := h.2.imp fun _ hl => ⟨hl.1, .inl ⟨rfl, hl.2⟩⟩
  cmd _ h := h.2.imp fun _ hl => ⟨hl.1, .inl ⟨rfl, hl.2⟩⟩
  conf _ _ _ := trivial
  stop _ _ _ _ := trivial

/-- The shape of what an instruction adds to the trace. -/
theorem exec_over (he : exec i s = .next t) : OverFrom s t :=
  ((tracks_calls s).exec i (fun _ _ _ _ h => h) (fun _ _ _ _ _ h => h) (fun _ _ _ h => h)
    (fun _ _ _ _ _ h => h) (fun _ _ _ _ _ _ _ _ h => h) (fun _ _ h => h) (fun _ _ _ h => h)
    (fun _ _ _ h => h.installCrc) (fun _ _ _ h => h) (fun _ => trivial) ⟨rfl, [], .refl s, nofun⟩).of_eq he

/-- Settles O52: in a hanging operation the sequencer is not idle. -/
theorem callsAreRecordedInOrder : Obligations.CallsAreRecordedInOrder := by
  intro s t i he
  obtain ⟨l, ⟨htrace, hcalls, hadapter⟩, ⟨-, hret⟩ | ⟨hbusy, -⟩⟩ := exec_over he
  · exact ⟨l, htrace, hcalls, hadapter, fun _ => hret⟩
  · exact ⟨l, htrace, hcalls, hadapter, fun hidle => absurd hidle hbusy⟩

/-- Settles O46: the operation is over in one of two ways, and only one of them has an idle sequencer or a call
that did not return. -/
theorem aCallThatNeverReturnsHangsTheBlock : Obligations.ACallThatNeverReturnsHangsTheBlock := by
  intro s t i he
  obtain ⟨l, ⟨htrace, -⟩, ⟨hidle, hret⟩ | ⟨hbusy, hres, c, l', rfl, hret⟩⟩ := exec_over he
  · have none_hangs : ¬ ∃ e ∈ l, e.reply = .never := fun ⟨e, hm, hn⟩ => hret e hm hn
    exact ⟨l, htrace, iff_of_false (not_not_intro hidle) none_hangs, fun h => absurd h none_hangs⟩
  · have last_hangs : ∃ e ∈ l' ++ [⟨c, .never⟩], e.reply = .never := ⟨⟨c, .never⟩, by simp, rfl⟩
    exact ⟨_, htrace, iff_of_true hbusy last_hangs, fun _ =>
      ⟨hres, ⟨c, l', rfl, hret⟩, fun w rest => step_busy rfl hbusy nofun⟩⟩

/-! ### Which calls -/

/-- From `s` on only legal calls were made, and the address is one a call may go to. -/
def LegalFrom (s t : State) : Prop :=
  legalAddr t.h.addr ∧ ∃ l, t.trace = s.trace ++ l ∧ ∀ e ∈ l, e.call.legal

theorem legalAddr_some {a : BusAddr} {r : Reg BusAddr} (h : legalAddr r) (hr : r = some a) :
    a = 0x44#7 ∨ a = 0x45#7 := by
  subst hr
  simpa [legalAddr] using h

/-- A call made from a state whose address is legal is legal: its code is one of the tables. -/
theorem Call.madeFrom_legal {c : Call} (h : legalAddr t.h.addr) (hc : c.madeFrom t) : c.legal := by
  cases c with
  | send a b0 b1 =>
    obtain ⟨ha, w, hw, rfl, rfl⟩ := hc
    exact ⟨legalAddr_some h ha, by rwa [word16_split]⟩
  | recv a n => exact ⟨legalAddr_some h hc.1, hc.2⟩
  | delay ms => exact hc
  | platformInit | platformDeInit | crc => trivial

theorem LegalFrom.record (h : LegalFrom s t) {e : Event} (he : e.call.madeFrom t) : LegalFrom s (t.record e) := by
  obtain ⟨haddr, l, hl, hlegal⟩ := h
  refine ⟨haddr, l ++ [e], by simp [hl], fun x hx => ?_⟩
  rcases List.mem_append.1 hx with hx | hx
  · exact hlegal x hx
  · rw [List.mem_singleton.1 hx]
    exact Call.madeFrom_legal haddr he

/-- Settles O53: along an instruction the address stays legal, and each call recorded is made from such a state. -/
theorem everyCallIsLegal : Obligations.EveryCallIsLegal := by
  intro s t i hinv he
  have hJ : Tracks (LegalFrom s) (LegalFrom s) fun _ => True :=
    .same (fun _ _ h => h) (fun _ _ _ h => h) (fun _ _ h => h) (fun _ _ _ h => h) (fun _ _ h => h)
      fun _ _ he h => h.record he
  have hover := hJ.exec i (fun _ _ _ _ h => h) (fun _ _ _ _ _ h => h) (fun _ _ _ h => h) (fun _ _ _ _ _ h => h)
    (fun _ _ _ _ _ _ _ _ h => h) (fun _ _ h => h) (fun sel _ _ h => ⟨resolveAddr_legal h.1 sel, h.2⟩)
    (fun _ _ _ h => by simpa [LegalFrom] using h) (fun _ _ _ h => h) (fun _ => trivial)
    (⟨hinv.addr, [], by simp, nofun⟩ : LegalFrom s s)
  exact (hover.of_eq he).2

end Sys2Proof.Machine
end

section
/-! How many calls of each kind an instruction makes (`70_reset_and_hazards.md` R136, `41_sample_acquisition.md`
section 6). -/

namespace Sys2Proof.Machine

variable {s t u : State}

/-! ### Counting along a trace -/

@[simp] theorem countCalls_append (p : Call → Bool) (l l' : List Event) :
    countCalls p (l ++ l') = countCalls p l + countCalls p l' := List.countP_append

@[simp] theorem countCalls_nil (p : Call → Bool) : countCalls p [] = 0 := rfl

@[simp] theorem countCalls_cons (p : Call → Bool) (e : Event) (l : List Event) :
    countCalls p (e :: l) = countCalls p l + (p e.call).toNat := by
  cases h : p e.call <;> simp [countCalls, h]

/-! A call is of its own kind and of no other. -/

@[simp] theorem send_kind (a : BusAddr) (b c : Byte) :
    (Call.send a b c).isSend = true ∧ (Call.send a b c).isRecv = false ∧ (Call.send a b c).isDelay = false ∧
    (Call.send a b c).isCrc = false ∧ (Call.send a b c).isPlatform = false := ⟨rfl, rfl, rfl, rfl, rfl⟩

@[simp] theorem recv_kind (a : BusAddr) (n : Nat) :
    (Call.recv a n).isSend = false ∧ (Call.recv a n).isRecv = true ∧ (Call.recv a n).isDelay = false ∧
    (Call.recv a n).isCrc = false ∧ (Call.recv a n).isPlatform = false := ⟨rfl, rfl, rfl, rfl, rfl⟩

@[simp] theorem delay_kind (ms : Nat) :
    (Call.delay ms).isSend = false ∧ (Call.delay ms).isRecv = false ∧ (Call.delay ms).isDelay = true ∧
    (Call.delay ms).isCrc = false ∧ (Call.delay ms).isPlatform = false := ⟨rfl, rfl, rfl, rfl, rfl⟩

@[simp] theorem platformInit_kind :
    Call.platformInit.isSend = false ∧ Call.platformInit.isRecv = false ∧ Call.platformInit.isDelay = false ∧
    Call.platformInit.isCrc = false ∧ Call.platformInit.isPlatform = true := ⟨rfl, rfl, rfl, rfl, rfl⟩

@[simp] theorem platformDeInit_kind :
    Call.platformDeInit.isSend = false ∧ Call.platformDeInit.isRecv = false ∧
    Call.platformDeInit.isDelay = false ∧ Call.platformDeInit.isCrc = false ∧
    Call.platformDeInit.isPlatform = true := ⟨rfl, rfl, rfl, rfl, rfl⟩

@[simp] theorem crc_kind (v : Word) (c : Byte) :
    (Call.crc v c).isSend = false ∧ (Call.crc v c).isRecv = false ∧ (Call.crc v c).isDelay = false ∧
    (Call.crc v c).isCrc = true ∧ (Call.crc v c).isPlatform = false := ⟨rfl, rfl, rfl, rfl, rfl⟩

@[simp] theorem sentCmd_trace (a : BusAddr) (w : Word) (st : Status) :
    (s.sentCmd a w st).trace = s.trace ++ [⟨.send a (hiByte w) (loByte w), .status st⟩] := rfl

@[simp] theorem hungSend_trace (a : BusAddr) (w : Word) :
    (s.hungSend a w).trace = s.trace ++ [⟨.send a (hiByte w) (loByte w), .never⟩] := rfl

@[simp] theorem attempt_trace (l : Nat) : (s.attempt l).trace = s.trace := rfl

@[simp] theorem decoded_trace : s.decoded.trace = s.trace := rfl

@[simp] theorem tChecked_trace :
    s.tChecked.trace = s.trace ++ [⟨.crc s.rxbuf.word0 s.rxbuf.b2, .status 0⟩] := rfl

@[simp] theorem statusAsked_trace (a : BusAddr) :
    (s.statusAsked a).trace = (s.sentCmd a Code.readStatus 0).trace := rfl

@[simp] theorem fetchAsked_trace (a : BusAddr) :
    (s.fetchAsked a).trace = (s.sentCmd a Code.fetchData 0).trace := rfl

@[simp] theorem baseline_trace : s.baseline.trace = s.trace := rfl

@[simp] theorem initPrepared_trace (sel : Nat) : (s.initPrepared sel).trace = s.trace := installCrc_trace _

/-- From `s` to `t` at most so many calls of each kind were made. -/
def CallsWithin (s t : State) (sends recvs delays crcs platforms : Nat) : Prop :=
  countCalls Call.isSend t.trace ≤ countCalls Call.isSend s.trace + sends ∧
  countCalls Call.isRecv t.trace ≤ countCalls Call.isRecv s.trace + recvs ∧
  countCalls Call.isDelay t.trace ≤ countCalls Call.isDelay s.trace + delays ∧
  countCalls Call.isCrc t.trace ≤ countCalls Call.isCrc s.trace + crcs ∧
  countCalls Call.isPlatform t.trace ≤ countCalls Call.isPlatform s.trace + platforms

/-- Whatever state an outcome has keeps the bounds of an instruction. -/
def Bounded (s : State) : Out → Prop := AllNext (CallsWithin s · 1 20 20 2 1) fun _ => True

@[simp] theorem bounded_next : Bounded s (.next t) ↔ CallsWithin s t 1 20 20 2 1 := .rfl
@[simp] theorem bounded_fault (r : Fault) : Bounded s (.fault r) := trivial
@[simp] theorem bounded_refused (r : Refusal) : Bounded s (.refused r) := trivial

/-! ### Each meaning -/

theorem sampleTail_bounded (h : CallsWithin s u 1 20 20 0 0) : Bounded s (sampleTail u) := by
  obtain ⟨hsend, hrecv, hdelay, hcrc, hplatform⟩ := h
  apply sampleTail_all (P := Bounded s) <;> intros <;>
    simp [CallsWithin] <;> omega

theorem fetchPath_bounded (h : CallsWithin s u 0 0 0 0 0) : Bounded s (fetchPath u) := by
  obtain ⟨hsend, hrecv, hdelay, hcrc, hplatform⟩ := h
  apply fetchPath_all (P := Bounded s)
  case htail =>
    intro a buf _
    apply sampleTail_bounded
    simp [CallsWithin]
    omega
  all_goals
    intros
    simp [CallsWithin] <;> omega

/-- Before an attempt that leaves `left - 1` attempts, the others are spent: a Receive and a Delay each. -/
theorem singleShotPath_bounded (h : CallsWithin s u 0 0 0 0 0) : Bounded s (singleShotPath u) := by
  obtain ⟨hsend, hrecv, hdelay, hcrc, hplatform⟩ := h
  apply singleShotPath_all (P := Bounded s)
    (J := fun left t => left ≤ 20 ∧ CallsWithin s t 1 (20 - left) (20 - left) 0 0)
    (F := fun left t => left < 20 ∧ CallsWithin s t 1 (20 - left) (19 - left) 0 0)
  case htail =>
    rintro left t a buf _ ⟨hleft, hsend, hrecv, hdelay, hcrc, hplatform⟩
    apply sampleTail_bounded
    simp [CallsWithin]
    omega
  case hrfail =>
    rintro left t a st buf _ _ ⟨hleft, hsend, hrecv, hdelay, hcrc, hplatform⟩
    refine ⟨by omega, ?_⟩
    simp [CallsWithin]
    omega
  case hdelay =>
    rintro left t st ⟨hleft, hsend, hrecv, hdelay, hcrc, hplatform⟩
    refine ⟨by omega, ?_⟩
    simp [CallsWithin]
    omega
  all_goals
    intros
    simp_all [nPoll, CallsWithin] <;> omega

theorem initBaseline_bounded (h : CallsWithin s u 0 0 0 0 1) : Bounded s (initBaseline u) := by
  obtain ⟨hsend, hrecv, hdelay, hcrc, hplatform⟩ := h
  apply initBaseline_all (P := Bounded s) <;> intros <;>
    simp [CallsWithin] <;> omega

theorem init_bounded (sel : Nat) : Bounded s (execInit sel s) := by
  apply init_all (P := Bounded s)
  case hbase =>
    intro u _ hu
    apply initBaseline_bounded
    rcases hu with ⟨hu, _⟩ | ⟨hu, _⟩ <;> rw [hu] <;>
      simp [CallsWithin]
  all_goals
    intros
    simp [CallsWithin]

/-- ReadSample starts on one of its two paths, with no call made. -/
theorem readSample_bounded : Bounded s (execReadSample s) := by
  have start : CallsWithin s (s.goto .readSample 1) 0 0 0 0 0 := by simp [CallsWithin]
  apply readSample_all (P := Bounded s) <;> intros
  case hsingle => exact singleShotPath_bounded start
  case hfetch => exact fetchPath_bounded start
  all_goals simp [CallsWithin]

theorem readStatus_bounded : Bounded s (execReadStatus s) := by
  apply readStatus_all (P := Bounded s) <;> intros <;>
    simp [CallsWithin]

theorem setSingleShot_bounded (rep : Nat) : Bounded s (execSetSingleShot rep s) := by
  apply setSingleShot_all (P := Bounded s) <;> intros <;>
    simp [CallsWithin]

theorem setPeriodic_bounded (speed rep : Nat) : Bounded s (execSetPeriodic speed rep s) := by
  apply setPeriodic_all (P := Bounded s) <;> intros <;>
    simp [CallsWithin]

theorem setART_bounded : Bounded s (execSetART s) := by
  apply setART_all (P := Bounded s) <;> intros <;>
    simp [CallsWithin]

theorem clearStatus_bounded : Bounded s (execClearStatus s) := by
  apply clearStatus_all (P := Bounded s) <;> intros <;>
    simp [CallsWithin]

theorem setHeater_bounded (e : Nat) : Bounded s (execSetHeater e s) := by
  apply setHeater_all (P := Bounded s) <;> intros <;>
    simp [CallsWithin]

theorem deInit_bounded : Bounded s (execDeInit s) := by
  apply deInit_all (P := Bounded s) <;> intros <;>
    simp [CallsWithin]

theorem issueCommand_bounded (w : Word) : Bounded s (issueCommand w s) := by
  apply issueCommand_all (P := Bounded s) <;> intros <;>
    simp [CallsWithin]

theorem exec_bounded (i : Instr) : Bounded s (exec i s) := by
  rcases exec_kinds i with ⟨sel, rfl⟩ | rfl | ⟨rep, rfl⟩ | ⟨speed, rep, rfl⟩ | rfl | rfl | rfl | rfl |
    ⟨e, rfl⟩ | ⟨sel, rfl⟩ | ⟨hx, -⟩ | ⟨-, -, hx⟩ | ⟨-, hx, -⟩
  · exact init_bounded sel
  · exact deInit_bounded
  · exact setSingleShot_bounded rep
  · exact setPeriodic_bounded speed rep
  · exact setART_bounded
  · exact readSample_bounded
  · exact readStatus_bounded
  · exact clearStatus_bounded
  · exact setHeater_bounded e
  · exact setAddressI2C_all (P := Bounded s) (fun _ => trivial) (by simp [CallsWithin])
  · rw [hx]
    exact reservedOperation_all (P := Bounded s) (fun _ => trivial) fun _ => by simp [CallsWithin]
  · rw [hx]
    exact issueCommand_bounded _
  · rw [hx]
    trivial

/-- Settles O54: what the bounded trace has more than the trace before is the appended calls. -/
theorem callsAreBounded : Obligations.CallsAreBounded := by
  intro s t i he
  obtain ⟨l, ⟨htrace, -⟩, -⟩ := exec_over he
  obtain ⟨hsend, hrecv, hdelay, hcrc, hplatform⟩ := (exec_bounded i).of_eq he
  simp only [htrace, countCalls_append, Nat.add_le_add_iff_left] at hsend hrecv hdelay hcrc hplatform
  exact ⟨l, htrace, hsend, hrecv, hdelay, hcrc, hplatform⟩

end Sys2Proof.Machine
end

section
/-! Who writes what: the handle (`10_state.md` section 2, `40_mode_config.md` R75 to R79, D17), the output registers
(`10_state.md` sections 3 and 4), and the Sample by the result of its read (`41_sample_acquisition.md` R92). -/

namespace Sys2Proof.Machine

variable {s t u : State} {i : Instr}

/-! ### The handle -/

/-- Nothing but a write of the handle disturbs a property of the handle. -/
theorem tracks_handle (P : Handle → Prop) : Tracks (fun t => P t.h) (fun t => P t.h) fun _ => True :=
  .same (fun _ _ h => h) (fun _ _ _ h => h) (fun _ _ h => h) (fun _ _ _ h => h) (fun _ _ h => h)
    fun _ _ _ h => h

/-- Settles O48: every write of the handle on an instruction's path is that of an excluded instruction. -/
theorem handleIsWrittenByItsOwnersOnly : Obligations.HandleIsWrittenByItsOwnersOnly := by
  intro s t i he hinit hsingle hperiodic hart
  exact ((tracks_handle (· = s.h)).exec i (fun _ _ _ _ h => h) (fun _ _ _ _ _ h => h) (fun _ _ _ h => h)
    (fun r hi => absurd hi (hsingle r)) (fun v r hi => absurd hi (hperiodic v r)) (fun hi => absurd hi hart)
    (fun sel hi => absurd hi (not_or.2 ⟨(hinit sel).2, (hinit sel).1⟩))
    (fun sel hi => absurd hi (hinit sel).1) (fun sel hi => absurd hi (hinit sel).1) (fun _ => trivial)
    rfl).of_eq he

/-- Settles O49: the writes of each operation keep the fields named. -/
theorem unownedHandleFieldsAreKept : Obligations.UnownedHandleFieldsAreKept := by
  intro s t
  refine ⟨fun rep he => ?_, fun speed rep he => ?_, fun he => ?_, fun sel he => ?_, fun sel he => ?_⟩
  · exact ((tracks_handle fun h => h.addr = s.h.addr ∧ h.speed = s.h.speed ∧ h.crc = s.h.crc).setSingleShot
      (fun _ _ _ h => h) ⟨rfl, rfl, rfl⟩).of_eq he
  · exact ((tracks_handle fun h => h.addr = s.h.addr ∧ h.crc = s.h.crc).setPeriodic
      (fun _ _ _ _ _ h => h) ⟨rfl, rfl⟩).of_eq he
  · exact ((tracks_handle fun h => h.addr = s.h.addr ∧ h.rep = s.h.rep ∧ h.speed = s.h.speed ∧
      h.crc = s.h.crc).setART (fun _ h => h) ⟨rfl, rfl, rfl, rfl⟩).of_eq he
  · exact ((tracks_handle fun h => h.mode = s.h.mode ∧ h.rep = s.h.rep ∧ h.speed = s.h.speed ∧
      h.crc = s.h.crc).setAddressI2C (fun _ h => h) ⟨rfl, rfl, rfl, rfl⟩).of_eq he
  · exact ((tracks_handle fun h => h.speed = s.h.speed).init (fun _ h => h)
      (fun t h => (installCrc_h_speed t).trans h) (fun _ h => h) rfl).of_eq he

/-- The handle is as it was, unless the operation ended in `Ok` (R75). -/
def KeepsHandleUnlessOk (s t : State) : Prop := (t.seq ≠ .idle ∨ t.res ≠ some .ok) → t.h = s.h

theorem keepsHandleUnlessOk_ok : KeepsHandleUnlessOk s (t.finish .ok) :=
  fun h => (h.elim (· rfl) (· rfl)).elim

/-- Settles O47: each exit but `Ok` is before the first write of the handle. -/
theorem failedModeSettingKeepsTheHandle : Obligations.FailedModeSettingKeepsTheHandle := by
  intro s t i hi he
  have main : AllNext (KeepsHandleUnlessOk s) (fun _ => True) (exec i s) := by
    rcases hi with ⟨rep, rfl⟩ | ⟨speed, rep, rfl⟩ | rfl
    · exact setSingleShot_all (P := AllNext (KeepsHandleUnlessOk s) fun _ => True) (fun _ => trivial)
        (fun _ _ => trivial) (fun _ _ => rfl) (fun _ _ _ _ => rfl) (fun _ _ _ _ _ => rfl)
        fun _ _ _ _ => keepsHandleUnlessOk_ok
    · exact setPeriodic_all (P := AllNext (KeepsHandleUnlessOk s) fun _ => True) (fun _ => trivial)
        (fun _ _ => trivial) (fun _ _ => rfl) (fun _ _ _ _ _ _ => rfl) (fun _ _ _ _ _ _ _ => rfl)
        fun _ _ _ _ _ _ _ _ => keepsHandleUnlessOk_ok
    · exact setART_all (P := AllNext (KeepsHandleUnlessOk s) fun _ => True) (fun _ => trivial)
        (fun _ _ => trivial) (fun _ _ _ _ => rfl) (fun _ _ _ _ _ => rfl)
        fun _ _ => keepsHandleUnlessOk_ok
  exact main.of_eq he

/-! ### The outputs, the configuration and the host's events -/

/-- What an instruction that is no owner of an output leaves as it was. -/
def OutputsKept (i : Instr) (s t : State) : Prop :=
  (i ≠ .readSample → t.sample = s.sample) ∧ (i ≠ .readStatus → t.stValue = s.stValue) ∧
    t.cfg = s.cfg ∧ t.host = s.host

/-- Settles O50: of the writes on an instruction's path only its owner's is of the output register. -/
theorem outputsAreWrittenByTheirOwnersOnly : Obligations.OutputsAreWrittenByTheirOwnersOnly := by
  intro s t i he
  have hJ : Tracks (OutputsKept i s) (OutputsKept i s) fun _ => True :=
    .same (fun _ _ h => h) (fun _ _ _ h => h) (fun _ _ h => h) (fun _ _ _ h => h) (fun _ _ h => h)
      fun _ _ _ h => h
  exact (hJ.exec i (fun hi _ _ _ h => ⟨fun hn => absurd hi hn, h.2⟩)
    (fun hi _ _ _ _ h => ⟨fun hn => absurd hi hn, h.2⟩)
    (fun hi _ _ h => ⟨h.1, fun hn => absurd hi hn, h.2.2⟩)
    (fun _ _ _ _ _ h => h) (fun _ _ _ _ _ _ _ _ h => h) (fun _ _ h => h) (fun _ _ _ h => h)
    (fun _ _ _ h => by simpa [OutputsKept] using h) (fun _ _ _ h => h) (fun _ => trivial)
    ⟨fun _ => rfl, fun _ => rfl, rfl, rfl⟩).of_eq he

/-! ### The Sample -/

/-- What a read that ended leaves in the Sample, by its result (R92, D12). -/
def SampleByResult (s t : State) : Prop :=
  t.seq = .idle →
    (t.res = some .ok → ∃ (tw hw : Word) (c f x : Flt),
      t.sample = ⟨some tw, some hw, some c, some f, some x⟩ ∧
      |c - celsiusQ tw| ≤ Config.cvtTol ∧ |f - fahrenheitQ tw| ≤ Config.cvtTol ∧
      |x - humidityQ hw| ≤ Config.cvtTol) ∧
    (t.res ≠ some .ok → t.res ≠ some .crcError → t.sample = s.sample) ∧
    (t.res = some .crcError → t.sample.celsius = s.sample.celsius ∧
      t.sample.fahrenheit = s.sample.fahrenheit ∧ t.sample.humidity = s.sample.humidity)

theorem SampleByResult.busy (h : t.seq ≠ .idle) : SampleByResult s t := fun hi => absurd hi h

theorem SampleByResult.kept {r : Result} (h : u.sample = s.sample) (hr : r ≠ .ok) (hc : r ≠ .crcError) :
    SampleByResult s (u.finish r) :=
  fun _ => ⟨fun ho => absurd (Option.some.inj ho) hr, fun _ _ => h,
    fun he => absurd (Option.some.inj he) hc⟩

theorem SampleByResult.crcError (hc : u.sample.celsius = s.sample.celsius)
    (hf : u.sample.fahrenheit = s.sample.fahrenheit) (hh : u.sample.humidity = s.sample.humidity) :
    SampleByResult s (u.finish .crcError) :=
  fun _ => ⟨nofun, fun _ h => absurd rfl h, fun _ => ⟨hc, hf, hh⟩⟩

/-- A delivered value is the rounding of its exact rational, so within `CVT_TOL` of it (R91). -/
theorem SampleByResult.converted {tw hw : Word} (ht : u.sample.tRaw = some tw) (hh : u.sample.hRaw = some hw) :
    SampleByResult s ((u.convert tw hw).finish .ok) :=
  fun _ => ⟨fun _ => ⟨tw, hw, _, _, _, by simp [ht, hh], Config.roundFlt_within _, Config.roundFlt_within _,
    Config.roundFlt_within _⟩, fun h => absurd rfl h, nofun⟩

/-- The outcomes of a read, and of the rest of one. -/
def ReadsSample (s : State) : Out → Prop := AllNext (SampleByResult s) fun _ => True

theorem sampleTail_readsSample (h : u.sample = s.sample) : ReadsSample s (sampleTail u) := by
  have hc : u.sample.celsius = s.sample.celsius := congrArg _ h
  have hf : u.sample.fahrenheit = s.sample.fahrenheit := congrArg _ h
  have hh : u.sample.humidity = s.sample.humidity := congrArg _ h
  exact sampleTail_all (P := ReadsSample s) (fun _ _ => trivial) (fun _ _ => .busy nofun)
    (fun _ _ _ => .crcError hc hf hh) (fun _ _ => .busy nofun) (fun _ _ _ => .crcError hc hf hh)
    (fun _ => .converted rfl rfl) fun _ => .converted rfl rfl

theorem fetchPath_readsSample (h : u.sample = s.sample) : ReadsSample s (fetchPath u) :=
  fetchPath_all (P := ReadsSample s) (fun _ _ => trivial) (fun _ _ _ => .busy nofun)
    (fun _ _ _ _ => .kept h nofun nofun) (fun _ _ _ => .busy nofun)
    (fun _ _ _ _ _ _ => .kept h nofun nofun) (fun _ _ _ _ _ _ => .kept h nofun nofun)
    fun _ _ _ => sampleTail_readsSample h

/-- The poll loop does not touch the Sample. -/
theorem singleShotPath_readsSample (h : u.sample = s.sample) : ReadsSample s (singleShotPath u) :=
  singleShotPath_all (P := ReadsSample s) (J := fun _ t => t.sample = s.sample)
    (F := fun _ t => t.sample = s.sample)
    (fun _ _ => trivial) (fun _ _ _ _ _ => trivial) (fun _ _ _ _ _ => .busy nofun)
    (fun _ _ _ _ _ _ => .kept h nofun nofun) (fun _ _ _ _ => h) (fun _ _ _ _ _ _ => .busy nofun)
    (fun _ _ _ _ _ ht => .kept ht nofun nofun) (fun _ _ _ _ _ ht => sampleTail_readsSample ht)
    (fun _ _ _ _ _ _ _ ht => ht) (fun _ _ _ _ => .busy nofun) (fun _ _ _ ht => ht)
    fun _ ht => .kept ht nofun nofun

/-- Settles O51: ReadSample takes one of its two paths with the Sample untouched. -/
theorem sampleAfterEachResult : Obligations.SampleAfterEachResult := by
  intro s t he
  have main : ReadsSample s (exec .readSample s) :=
    readSample_all (P := ReadsSample s) (fun _ => trivial) (fun _ _ => trivial)
      (fun _ => .kept rfl nofun nofun) (fun _ => singleShotPath_readsSample rfl)
      fun _ => fetchPath_readsSample rfl
  exact main.of_eq he

end Sys2Proof.Machine
end

section
/-! What no instruction reads (`10_state.md` R14, R21, R23, R25, R26): two runs that differ only there stay alike. -/

namespace Sys2Proof.Machine

/-- Related outcomes are equal after two maps that make related states equal. -/
theorem RelOut.mapNext_eq {R : State → State → Prop} {f g : State → State} {o o' : Out}
    (hR : ∀ s t, R s t → g t = f s) (h : RelOut R o o') : mapNext g o' = mapNext f o := by
  cases o with
  | next s =>
    cases o' with
    | next t => exact congrArg Host.Outcome.next (hR s t h)
    | fault | refused => exact h.elim
  | fault r =>
    cases o' with
    | fault r' => exact congrArg Host.Outcome.fault h.symm
    | next | refused => exact h.elim
  | refused r =>
    cases o' with
    | refused r' => exact congrArg Host.Outcome.refused h.symm
    | next | fault => exact h.elim

theorem mapNext_id (o : Out) : mapNext id o = o := by
  cases o <;> rfl

/-- The two states become equal when `erase` blots out what they may differ in. -/
def Alike (erase : State → State) (s t : State) : Prop := erase t = erase s

/-- An update that commutes with the erasure keeps two states alike. -/
theorem Alike.map {erase : State → State} {s t : State} (h : Alike erase s t) (f : State → State)
    (hf : ∀ u, erase (f u) = f (erase u)) : Alike erase (f s) (f t) := by
  rw [Alike, hf, hf, h]

/-! ### H.SPEED -/

/-- The two states are alike but for `H.SPEED`, which in the second is `v` unless `i` is the instruction that writes
it. -/
def AlikeButSpeed (i : Instr) (v : Reg Speed) (s t : State) : Prop :=
  Alike (·.withSpeed none) s t ∧ ((∀ sp rp, i ≠ .setPeriodic sp rp) → t.h.speed = v)

theorem withSpeed_installCrc (s : State) (v : Reg Speed) :
    s.installCrc.withSpeed v = (s.withSpeed v).installCrc := by
  cases hc : s.h.crc <;> simp [State.installCrc, State.withSpeed, State.setCrc, hc]

theorem bisim_speed (i : Instr) (v : Reg Speed) : Bisim (AlikeButSpeed i v) where
  cfg _ _ h := congrArg (·.cfg) h.1
  addr _ _ h := congrArg (·.h.addr) h.1
  mode _ _ h := congrArg (·.h.mode) h.1
  rep _ _ h := congrArg (·.h.rep) h.1
  crc _ _ h := congrArg (·.h.crc) h.1
  adapter _ _ h := congrArg (·.adapter) h.1
  calls _ _ h := congrArg (·.calls) h.1
  seq _ _ q h := ⟨h.1.map (·.setSeq q) fun _ => rfl, h.2⟩
  tx _ _ a b h := ⟨h.1.map (·.setTx a b) fun _ => rfl, h.2⟩
  rx _ _ n b h := ⟨h.1.map (fun s => s.setRx (s.rxbuf.receive n b)) fun _ => rfl, h.2⟩
  poll _ _ n h := ⟨h.1.map (·.setPollCnt n) fun _ => rfl, h.2⟩
  log _ _ e h := ⟨h.1.map (·.record e) fun _ => rfl, h.2⟩
  res _ _ r h := ⟨h.1.map (·.setRes r) fun _ => rfl, h.2⟩

theorem exec_alikeButSpeed (i : Instr) (s : State) (v : Reg Speed) :
    RelOut (AlikeButSpeed i v) (exec i s) (exec i (s.withSpeed v)) :=
  (bisim_speed i v).exec i
    (fun _ _ _ a b h => ⟨h.1.map (·.setRaw a b) fun _ => rfl, h.2⟩)
    (fun _ _ _ a b c h => ⟨h.1.map (·.setDerived a b c) fun _ => rfl, h.2⟩)
    (fun _ _ _ w h => ⟨h.1.map (·.setStValue w) fun _ => rfl, h.2⟩)
    (fun _ _ _ _ r h => ⟨h.1.map (fun s => (s.setMode .singleShot).setRep r) fun _ => rfl, h.2⟩)
    (fun sp rp hi _ _ _ r h =>
      ⟨h.1.map (fun s => (s.setMode .periodic).setRep r) fun _ => rfl, fun hn => absurd hi (hn sp rp)⟩)
    (fun _ _ _ h => ⟨h.1.map (·.setMode .art) fun _ => rfl, h.2⟩)
    (fun sel _ _ _ h => ⟨h.1.map (·.resolve sel) fun _ => rfl, h.2⟩)
    (fun _ _ _ t h => ⟨h.1.map _ fun u => withSpeed_installCrc u none,
      fun hn => (installCrc_h_speed t).trans (h.2 hn)⟩)
    (fun _ _ _ _ h => ⟨h.1.map (fun s => (s.setMode .singleShot).setRep .low) fun _ => rfl, h.2⟩)
    ⟨rfl, fun _ => rfl⟩

/-- Settles O55: the two runs stay alike, and the register itself goes along but in SetPeriodic. -/
theorem speedIsNeverRead : Obligations.SpeedIsNeverRead := by
  refine ⟨fun i s v => RelOut.mapNext_eq (fun _ _ h => h.1) (exec_alikeButSpeed i s v), fun i s v hi => ?_⟩
  rw [← mapNext_id (exec i (s.withSpeed v))]
  refine RelOut.mapNext_eq (fun s t ⟨halike, hspeed⟩ => ?_) (exec_alikeButSpeed i s v)
  have ht : t.withSpeed v = s.withSpeed v := congrArg (·.withSpeed v) halike
  rw [← ht, ← hspeed hi]
  rfl

/-! ### The output registers -/

/-- The state with the Sample, `ST.VALUE` and `RES` blotted out. -/
def State.eraseOutputs (s : State) : State := s.withOutputs ⟨none, none, none, none, none⟩ none none

theorem eraseOutputs_installCrc (s : State) : s.installCrc.eraseOutputs = s.eraseOutputs.installCrc := by
  cases hc : s.h.crc <;> simp [State.installCrc, State.eraseOutputs, State.withOutputs, State.setCrc, hc]

theorem bisim_outputs : Bisim (Alike State.eraseOutputs) where
  cfg _ _ h := congrArg (·.cfg) h
  addr _ _ h := congrArg (·.h.addr) h
  mode _ _ h := congrArg (·.h.mode) h
  rep _ _ h := congrArg (·.h.rep) h
  crc _ _ h := congrArg (·.h.crc) h
  adapter _ _ h := congrArg (·.adapter) h
  calls _ _ h := congrArg (·.calls) h
  seq _ _ q h := h.map (·.setSeq q) fun _ => rfl
  tx _ _ a b h := h.map (·.setTx a b) fun _ => rfl
  rx _ _ n b h := h.map (fun s => s.setRx (s.rxbuf.receive n b)) fun _ => rfl
  poll _ _ n h := h.map (·.setPollCnt n) fun _ => rfl
  log _ _ e h := h.map (·.record e) fun _ => rfl
  res _ _ _ h := h

/-- Settles O56: the two runs stay alike with the output registers blotted out. -/
theorem outputsAreNeverRead : Obligations.OutputsAreNeverRead := by
  intro i s x v r
  exact RelOut.mapNext_eq (fun _ _ h => h) (bisim_outputs.exec i (s := s) (t := s.withOutputs x v r)
    (fun _ _ _ _ _ h => h) (fun _ _ _ _ _ _ h => h) (fun _ _ _ _ h => h)
    (fun _ _ _ _ r h => h.map (fun s => (s.setMode .singleShot).setRep r) fun _ => rfl)
    (fun _ _ _ _ _ v r h => h.map (fun s => ((s.setMode .periodic).setSpeed v).setRep r) fun _ => rfl)
    (fun _ _ _ h => h.map (·.setMode .art) fun _ => rfl)
    (fun sel _ _ _ h => h.map (·.resolve sel) fun _ => rfl)
    (fun _ _ _ _ h => h.map _ eraseOutputs_installCrc)
    (fun _ _ _ _ h => h.map (fun s => (s.setMode .singleShot).setRep .low) fun _ => rfl) rfl)

/-! ### The scratch registers -/

/-- The state with `TXBUF`, `RXBUF` and `POLL_CNT` blotted out. -/
def State.eraseScratch (s : State) : State := s.withScratch ⟨0, 0⟩ ⟨0, 0, 0, 0, 0, 0⟩ 0

theorem eraseScratch_installCrc (s : State) : s.installCrc.eraseScratch = s.eraseScratch.installCrc := by
  cases hc : s.h.crc <;> simp [State.installCrc, State.eraseScratch, State.withScratch, State.setCrc, hc]

theorem bisim_scratch : Bisim (Alike State.eraseScratch) where
  cfg _ _ h := congrArg (·.cfg) h
  addr _ _ h := congrArg (·.h.addr) h
  mode _ _ h := congrArg (·.h.mode) h
  rep _ _ h := congrArg (·.h.rep) h
  crc _ _ h := congrArg (·.h.crc) h
  adapter _ _ h := congrArg (·.adapter) h
  calls _ _ h := congrArg (·.calls) h
  seq _ _ q h := h.map (·.setSeq q) fun _ => rfl
  tx _ _ _ _ h := h
  rx _ _ _ _ h := h
  poll _ _ _ h := h
  log _ _ e h := h.map (·.record e) fun _ => rfl
  res _ _ r h := h.map (·.setRes r) fun _ => rfl

/-- Settles O57: a line that reads `RXBUF` reads what the Receive before it left there, in both runs the same. -/
theorem scratchIsNeverReadBeforeWritten : Obligations.ScratchIsNeverReadBeforeWritten := by
  intro i s tx rx n
  exact RelOut.mapNext_eq (fun _ _ h => h) (bisim_scratch.exec i (s := s) (t := s.withScratch tx rx n)
    (fun _ _ _ a b h => h.map (·.setRaw a b) fun _ => rfl)
    (fun _ _ _ a b c h => h.map (·.setDerived a b c) fun _ => rfl)
    (fun _ _ _ v h => h.map (·.setStValue v) fun _ => rfl)
    (fun _ _ _ _ r h => h.map (fun s => (s.setMode .singleShot).setRep r) fun _ => rfl)
    (fun _ _ _ _ _ v r h => h.map (fun s => ((s.setMode .periodic).setSpeed v).setRep r) fun _ => rfl)
    (fun _ _ _ h => h.map (·.setMode .art) fun _ => rfl)
    (fun sel _ _ _ h => h.map (·.resolve sel) fun _ => rfl)
    (fun _ _ _ _ h => h.map _ eraseScratch_installCrc)
    (fun _ _ _ _ h => h.map (fun s => (s.setMode .singleShot).setRep .low) fun _ => rfl) rfl)

end Sys2Proof.Machine
end

section
/-! The converter of `41_sample_acquisition.md`: the Fahrenheit transfer function (R89), nine fifths of the Celsius one
and 32. -/

namespace Sys2Proof.Machine

theorem fahrenheitQ_eq_celsiusQ (t : Word) : fahrenheitQ t = celsiusQ t * (9 / 5) + 32 := by
  unfold fahrenheitQ celsiusQ
  ring

theorem fahrenheitQ_eq_div (t : Word) : fahrenheitQ t = (315 * (t.toNat : Rat) - 3211215) / 65535 := by
  unfold fahrenheitQ
  ring

/-- Settles O59: the bounds are those of Celsius, the four points evaluated. -/
theorem fahrenheitTransferFunction : Obligations.FahrenheitTransferFunction := by
  refine ⟨fun t => ⟨rfl, fahrenheitQ_eq_div t, ?_, ?_, fahrenheitQ_eq_celsiusQ t⟩, ?_, ?_, ?_, ?_⟩
  · rw [fahrenheitQ_eq_celsiusQ]
    linarith [celsiusQ_ge t]
  · rw [fahrenheitQ_eq_celsiusQ]
    linarith [celsiusQ_le t]
  all_goals
    simp only [fahrenheitQ, BitVec.reduceToNat]
    norm_num

end Sys2Proof.Machine
end

section
/-! The primitives and the operations that are one Send at most (`20_memory.md`, `30_encoding.md`, `40_mode_config.md`,
`42_status_control.md`): the state each of them leaves, in full. Where a rule has premises about the state `rw` is yet
to find, `(by exact h)` holds them back until it is found. -/

namespace Sys2Proof.Machine

variable {s : State} {a : BusAddr} {st : Status} {buf : RxBuf}

/-! ### The primitives -/

/-- Settles O10: the negative NACK code is not the status 0. -/
theorem receiveStatusIsClassified : Obligations.ReceiveStatusIsClassified := by
  intro c st hneg
  have hnack : c.nackCode ≠ 0 := fun h => absurd hneg (by rw [h]; decide)
  rcases classifyRecv_cases c st with ⟨hc, rfl⟩ | ⟨hc, h0, rfl⟩ | ⟨hc, h0, h1⟩
  · simpa [show classifyRecv c 0#8 = .recvOk from hc] using Ne.symm hnack
  · simpa [hc] using hnack
  · simpa [hc, h1] using h0

/-- Settles O11: one rule for each content of `H.CRC`. -/
theorem crcCheckFollowsTheBinding : Obligations.CrcCheckFollowsTheBinding := by
  intro v c s k
  refine ⟨fun st buf h hb hr => ?_, crcCheck_default, crcCheck_unbound⟩
  rw [crcCheck_ext h hb hr, statusOk_eq_decide]
  rfl

theorem word16_toNat (hi lo : Byte) : (word16 hi lo).toNat = 256 * hi.toNat + lo.toNat := by
  have hshift : hi.toNat <<< 8 ||| lo.toNat = 256 * hi.toNat + lo.toNat := by
    rw [← Nat.shiftLeft_add_eq_or_of_lt lo.isLt, Nat.shiftLeft_eq, Nat.mul_comm]
  have hlt : hi.toNat <<< 8 < 2 ^ 16 := by
    rw [Nat.shiftLeft_eq]
    omega
  simp only [word16, BitVec.toNat_or, BitVec.toNat_shiftLeft, BitVec.toNat_setWidth]
  rw [Nat.mod_eq_of_lt (a := hi.toNat) (by omega), Nat.mod_eq_of_lt hlt, Nat.mod_eq_of_lt (by omega), hshift]

/-- Settles O12: the high byte shifted and the low byte have no bit in common. -/
theorem responseWordsAreBigEndian : Obligations.ResponseWordsAreBigEndian :=
  ⟨fun hi lo => ⟨rfl, word16_toNat hi lo⟩, fun _ => ⟨rfl, rfl⟩⟩

/-! ### Operands -/

theorem repOperand_isSome_iff : ∀ n, (repOperand n).isSome = true ↔ n ≤ 2
  | 0 | 1 | 2 => by decide
  | n + 3 => by simp [repOperand]

theorem speedOperand_isSome_iff : ∀ n, (speedOperand n).isSome = true ↔ n ≤ 4
  | 0 | 1 | 2 | 3 | 4 => by decide
  | n + 5 => by simp [speedOperand]

theorem repOperand_eq_none {n : Nat} (h : 2 < n) : repOperand n = none :=
  Option.not_isSome_iff_eq_none.1 fun hs => absurd ((repOperand_isSome_iff n).1 hs) (by omega)

theorem speedOperand_eq_none {n : Nat} (h : 4 < n) : speedOperand n = none :=
  Option.not_isSome_iff_eq_none.1 fun hs => absurd ((speedOperand_isSome_iff n).1 hs) (by omega)

/-! ### Mode configuration -/

theorem setSingleShot_invalid {rep : Nat} (hc : s.cfg.clockStretch = false) (h : repOperand rep = none) :
    exec (.setSingleShot rep) s = .next (s.finish .invalidParam) := by
  simp only [exec, execSetSingleShot, startOperation_runs hc, h]
  rfl

theorem setPeriodic_invalid {speed rep : Nat} (hc : s.cfg.clockStretch = false)
    (h : repOperand rep = none ∨ speedOperand speed = none) :
    exec (.setPeriodic speed rep) s = .next (s.finish .invalidParam) := by
  simp only [exec, execSetPeriodic, startOperation_runs hc]
  rcases h with h | h
  · rw [h]
    cases speedOperand speed <;> rfl
  · rw [h]
    rfl

/-- Settles O13: an operand without a decoding ends the operation before its Send. -/
theorem operandRanges : Obligations.OperandRanges := by
  refine ⟨⟨rfl, rfl, rfl⟩, ⟨rfl, rfl, rfl, rfl, rfl⟩, repOperand_isSome_iff, speedOperand_isSome_iff,
    fun s speed rep hc => ⟨fun h => ?_, fun h => ?_⟩⟩
  · exact setSingleShot_invalid hc (repOperand_eq_none h)
  · exact setPeriodic_invalid hc (h.imp repOperand_eq_none speedOperand_eq_none)

section Answered
variable (hc : s.cfg.clockStretch = false) (ha : s.h.addr = some a) (hs : s.cfg.hasSend = true)
  (hr : s.answerAt 0 = .returns st buf)
include ha hs hr

/-- One Send and a return by its status. -/
theorem sendThenReturn_returns (cmd : Word) (f : State → State) :
    (writeCommand cmd s fun sent s => if sent then returnResult .ok (f s) else returnResult .fail s) =
      .next (if st = 0 then (f (s.sentCmd a cmd st)).finish .ok else (s.sentCmd a cmd st).finish .fail) := by
  rw [writeCommand_returns ha hs hr]
  by_cases h0 : st = 0
  · simp only [h0, statusOk_zero, if_true]
    rfl
  · simp only [h0, statusOk_ne h0, if_false]
    rfl

include hc

theorem setSingleShot_returns {rep : Nat} {r : Repeatability} (h : repOperand rep = some r) :
    exec (.setSingleShot rep) s = .next (if st = 0
      then (((s.afterSend a 0x30 0x93 st).setMode .singleShot).setRep r).finish .ok
      else (s.afterSend a 0x30 0x93 st).finish .fail) := by
  simp only [exec, execSetSingleShot, startOperation_runs hc, h]
  exact sendThenReturn_returns (s := (s.goto _ 1).goto _ 2) ha hs hr _ _

theorem setPeriodic_returns {speed rep : Nat} {v : Speed} {r : Repeatability} {cmd : Word}
    (hv : speedOperand speed = some v) (hrep : repOperand rep = some r) (hcmd : periodicCmd v r = some cmd) :
    exec (.setPeriodic speed rep) s = .next (if st = 0
      then ((((s.sentCmd a cmd st).setMode .periodic).setSpeed v).setRep r).finish .ok
      else (s.sentCmd a cmd st).finish .fail) := by
  simp only [exec, execSetPeriodic, startOperation_runs hc, hv, hrep, hcmd]
  exact sendThenReturn_returns (s := (s.goto _ 1).goto _ 2) ha hs hr _ _

theorem setART_returns : exec .setART s = .next (if st = 0
    then ((s.afterSend a 0x2B 0x32 st).setMode .art).finish .ok
    else (s.afterSend a 0x2B 0x32 st).finish .fail) := by
  simp only [exec, execSetART, startOperation_runs hc]
  exact sendThenReturn_returns (s := s.goto _ 1) ha hs hr _ _

theorem clearStatus_returns : exec .clearStatus s =
    .next ((s.afterSend a 0x30 0x41 st).finish (if st = 0 then .ok else .fail)) := by
  simp only [exec, execClearStatus, startOperation_runs hc]
  refine (sendThenReturn_returns (s := s.goto _ 1) ha hs hr _ id).trans ?_
  split <;> rfl

theorem setHeater_returns (enabled : Nat) : exec (.setHeater enabled) s =
    .next ((s.sentCmd a (heaterCmd enabled) st).finish (if st = 0 then .ok else .fail)) := by
  simp only [exec, execSetHeater, startOperation_runs hc]
  refine (sendThenReturn_returns (s := (s.goto _ 1).goto _ 2) ha hs hr _ id).trans ?_
  split <;> rfl

theorem issueCommand_returns (cmd : Word) :
    issueCommand cmd s = .next ((s.sentCmd a cmd st).setSeq .idle) := by
  simp only [issueCommand, inSpecifiedConfig, hc, Bool.false_eq_true, if_false]
  rw [writeCommand_returns (s := s.setSeq .command) ha hs hr]
  rfl

end Answered

/-- Settles O14: the row's operand is in range, and the Send's status decides what is stored. -/
theorem setSingleShotValidatesSendsStores : Obligations.SetSingleShotValidatesSendsStores := by
  refine ⟨fun w hw => ?_, fun s rep hc => ⟨fun h => setSingleShot_invalid hc (repOperand_eq_none h), ?_⟩⟩
  · have hop : reqOp w = 2 := congrArg BitVec.toNat hw
    simp only [decodeRequest, hop, reqB]
  · intro r a st buf hrow ha hs hr
    have hrep : repOperand rep = some r := by
      simp only [List.mem_cons, Prod.mk.injEq, List.not_mem_nil, or_false] at hrow
      rcases hrow with ⟨rfl, rfl⟩ | ⟨rfl, rfl⟩ | ⟨rfl, rfl⟩ <;> rfl
    rw [setSingleShot_returns hc ha hs hr hrep]
    exact ⟨fun h => by rw [if_neg h], fun h => by rw [if_pos h]⟩

/-- What a row of the periodic table says: its operands are in range, and its bytes are those of the code. -/
theorem periodicTable_rows : ∀ row ∈ periodicTable,
    speedOperand row.1.1 = some row.2.1.1 ∧ repOperand row.1.2 = some row.2.1.2 ∧
    periodicCmd row.2.1.1 row.2.1.2 = some (word16 row.2.2.1 row.2.2.2) ∧
    hiByte (word16 row.2.2.1 row.2.2.2) = row.2.2.1 ∧ loByte (word16 row.2.2.1 row.2.2.2) = row.2.2.2 := by
  decide

/-- Settles O15: the row names its command, and the Send's status decides what is stored. -/
theorem setPeriodicSendsTheTableCode : Obligations.SetPeriodicSendsTheTableCode := by
  intro row hrow s a st buf hc ha hs hr
  obtain ⟨hspeed, hrep, hcmd, hhi, hlo⟩ := periodicTable_rows row hrow
  rw [setPeriodic_returns hc ha hs hr hspeed hrep hcmd, State.sentCmd, hhi, hlo]
  exact ⟨fun h => by rw [if_neg h], fun h => by rw [if_pos h]⟩

/-- Settles O16: one Send, and its status decides what is stored. -/
theorem setARTSendsThenStoresMode : Obligations.SetARTSendsThenStoresMode := by
  refine ⟨fun w hw => ?_, fun s a st buf hc ha hs hr => ?_⟩
  · have hop : reqOp w = 4 := congrArg BitVec.toNat hw
    simp only [decodeRequest, hop]
  · rw [setART_returns hc ha hs hr]
    exact ⟨fun h => by rw [if_neg h], fun h => by rw [if_pos h]⟩

/-! ### Control -/

/-- Settles O17: one Send each, the heater's code by whether the operand is 0. -/
theorem clearStatusAndHeaterSendOnce : Obligations.ClearStatusAndHeaterSendOnce := by
  intro s a st buf enabled hc ha hs hr
  refine ⟨clearStatus_returns hc ha hs hr, fun h => ?_, fun h => ?_⟩
  · rw [setHeater_returns hc ha hs hr, heaterCmd, if_pos h]
    rfl
  · rw [setHeater_returns hc ha hs hr, heaterCmd, if_neg (not_not_intro h)]
    rfl

theorem setAddressI2C_runs (hc : s.cfg.clockStretch = false) (sel : Nat) :
    exec (.setAddressI2C sel) s = .next ((s.resolve sel).finish .ok) := by
  simp only [exec, execSetAddressI2C, startOperation_runs hc]
  rfl

theorem resolve_of_selectorOperand {sel : Nat} (h : selectorOperand sel = some a) :
    s.resolve sel = s.setAddr a := by
  simp only [State.resolve, resolveAddr, h, State.setAddr]

theorem resolve_defaultToA {sel : Nat} (h : selectorOperand sel = none)
    (hp : s.cfg.addrDefaultPolicy = .defaultToA) : s.resolve sel = s.setAddr 0x44#7 := by
  simp only [State.resolve, resolveAddr, h, hp, State.setAddr, addrA]
  rfl

theorem resolve_keepPrevious {sel : Nat} (h : selectorOperand sel = none)
    (hp : s.cfg.addrDefaultPolicy = .keepPrevious) : s.resolve sel = s := by
  simp only [State.resolve, resolveAddr, h, hp]

/-- Settles O18: the three sets of selectors are the three branches of `ResolveAddr`. -/
theorem setAddressResolvesTheSelector : Obligations.SetAddressResolvesTheSelector := by
  intro s sel hc
  simp only [setAddressI2C_runs hc, List.mem_cons, List.not_mem_nil, or_false]
  refine ⟨fun h => ?_, fun h => ?_, fun h => ⟨fun hp => ?_, fun hp => ?_⟩⟩
  · rw [resolve_of_selectorOperand (a := 0x44#7) (by rcases h with rfl | rfl | rfl <;> rfl)]
  · rw [resolve_of_selectorOperand (a := 0x45#7) (by rcases h with rfl | rfl | rfl <;> rfl)]
  · rw [resolve_defaultToA (by rw [selectorOperand, if_neg (by omega), if_neg (by omega)]) hp]
  · rw [resolve_keepPrevious (by rw [selectorOperand, if_neg (by omega), if_neg (by omega)]) hp]

/-! ### Reserved numbers, bare commands, the refused configuration -/

/-- Settles O33: all six reserved rows run the same operation. -/
theorem reservedNumbersGiveInvalidParam : Obligations.ReservedNumbersGiveInvalidParam := by
  refine ⟨fun w => decodeRequest_reserved, fun i hi s hc => ?_⟩
  have hx : exec i s = reservedOperation s := by
    simp only [List.mem_cons, List.not_mem_nil, or_false] at hi
    rcases hi with rfl | rfl | rfl | rfl | rfl | rfl <;> rfl
  simp only [hx, reservedOperation, inSpecifiedConfig, hc]
  rfl

/-- A row of the wire table is a command of the specified configuration, and its bytes are those of its code. -/
theorem wireTable_rows : ∀ row ∈ wireTable,
    row.1.format = .cmd16 ∧ hiByte row.1.word = row.2.1 ∧ loByte row.1.word = row.2.2 ∧
    row.1 ∉ [Instr.cmdSingleShotStretchLow, .cmdSingleShotStretchMedium, .cmdSingleShotStretchHigh] := by
  decide

/-- A command of the specified configuration is issued with its code. -/
theorem exec_command {i : Instr} (hf : i.format = .cmd16)
    (hst : i ∉ [Instr.cmdSingleShotStretchLow, .cmdSingleShotStretchMedium, .cmdSingleShotStretchHigh]) :
    exec i s = issueCommand i.word s := by
  cases i with
  | init | deInit | setSingleShot | setPeriodic | setART | readSample | readStatus | clearStatus | setHeater
  | setAddressI2C => cases hf
  | reservedOpA | reservedOpB | reservedOpC | reservedOpD | reservedOpE | reservedOpF => cases hf
  | cmdSingleShotStretchLow | cmdSingleShotStretchMedium | cmdSingleShotStretchHigh =>
    exact absurd (by decide) hst
  | _ => rfl

/-- Settles O34: a row of the wire table is issued with the code made of its two bytes. -/
theorem wireCommandsSendTheirCode : Obligations.WireCommandsSendTheirCode := by
  intro row hrow s a st buf hc ha hs hr
  obtain ⟨hformat, hhi, hlo, hst⟩ := wireTable_rows row hrow
  rw [exec_command hformat hst, issueCommand_returns hc ha hs hr, State.sentCmd, hhi, hlo]
  rfl

theorem inSpecifiedConfig_refused {k : State → Out} (h : s.cfg.clockStretch = true) :
    inSpecifiedConfig s k = .refused .clockStretchConfiguration := by
  simp only [inSpecifiedConfig, h, if_true]

/-- In the configuration with clock stretching every instruction is refused before its first line (R64). -/
theorem exec_refused (i : Instr) (h : s.cfg.clockStretch = true) :
    exec i s = .refused .clockStretchConfiguration := by
  have start (op : Operation) (k : State → Out) : startOperation op s k = .refused .clockStretchConfiguration :=
    inSpecifiedConfig_refused h
  rcases exec_kinds i with ⟨sel, rfl⟩ | rfl | ⟨rep, rfl⟩ | ⟨speed, rep, rfl⟩ | rfl | rfl | rfl | rfl |
    ⟨e, rfl⟩ | ⟨sel, rfl⟩ | ⟨hx, -⟩ | ⟨-, -, hx⟩ | ⟨-, hx, -⟩
  · simp only [exec, execInit, start]
  · simp only [exec, execDeInit, start]
  · simp only [exec, execSetSingleShot, start]
  · simp only [exec, execSetPeriodic, start]
  · simp only [exec, execSetART, start]
  · simp only [exec, execReadSample, start]
  · simp only [exec, execReadStatus, start]
  · simp only [exec, execClearStatus, start]
  · simp only [exec, execSetHeater, start]
  · simp only [exec, execSetAddressI2C, start]
  · rw [hx, reservedOperation, inSpecifiedConfig_refused h]
  · rw [hx, issueCommand, inSpecifiedConfig_refused h]
  · exact hx s

/-- Settles O35: the three codes evaluated, their meaning, and the refusal before every first line. -/
theorem clockStretchIsRefused : Obligations.ClockStretchIsRefused := by
  refine ⟨by decide, fun i hi s => ?_, fun i s => exec_refused i⟩
  simp only [List.mem_cons, List.not_mem_nil, or_false] at hi
  rcases hi with rfl | rfl | rfl <;> rfl

end Sys2Proof.Machine
end

section
/-! ReadStatus, Init and DeInit call by call (`42_status_control.md` R93, `43_init_teardown.md` R98, R99): the state
each exit leaves, in full. -/

namespace Sys2Proof.Machine

variable {s : State} {a : BusAddr}

/-! ### Answers after a call -/

@[simp] theorem answerAt_afterRecv (a : BusAddr) (n : Nat) (st : Status) (buf : RxBuf) (k : Nat) :
    (s.afterRecv a n st buf).answerAt k = s.answerAt (k + 1) :=
  answerAt_record s ⟨.recv a n, .received st (buf.bytes.take n)⟩ k

@[simp] theorem answerAt_afterCall (c : Call) (st : Status) (k : Nat) :
    (s.afterCall c st).answerAt k = s.answerAt (k + 1) := answerAt_record _ _ k

@[simp] theorem answerAt_sentCmd (a : BusAddr) (w : Word) (st : Status) (k : Nat) :
    (s.sentCmd a w st).answerAt k = s.answerAt (k + 1) := answerAt_record _ _ k

/-! ### ReadStatus -/

section ReadStatus
variable {st0 st1 : Status} {buf0 buf : RxBuf}
variable (hc : s.cfg.clockStretch = false) (ha : s.h.addr = some a) (hs : s.cfg.hasSend = true)
include hc ha hs

theorem readStatus_send_fails (h0 : s.answerAt 0 = .returns st0 buf0) (hst : st0 ≠ 0) :
    exec .readStatus s = .next ((s.afterSend a 0xF3 0x2D st0).finish .fail) := by
  simp only [exec, execReadStatus, startOperation_runs hc]
  rw [writeCommand_returns (s := s.goto _ 1) ha hs h0, statusOk_ne hst]
  rfl

variable (hv : s.cfg.hasRecv = true) (h0 : s.answerAt 0 = .returns 0 buf0)
include hv h0

/-- After the Receive: the status word is stored and checked, or the read has failed. -/
theorem readStatus_receives (h1 : s.answerAt 1 = .returns st1 buf) :
    exec .readStatus s =
      if st1 = 0 then
        crcCheck (word16 buf.b0 buf.b1) buf.b2
          ((((s.statusAsked a).afterRecv a 3 0 buf).setStValue (word16 buf.b0 buf.b1)).goto .readStatus 5)
          fun ok s => if ok then returnResult .ok s else returnResult .crcError s
      else returnResult .fail ((s.statusAsked a).afterRecv a 3 st1 buf) := by
  simp only [exec, execReadStatus, startOperation_runs hc]
  rw [writeCommand_returns (s := s.goto _ 1) ha hs h0, statusOk_zero, if_pos rfl,
    busRecv_returns (a := a) (st := st1) (buf := buf) (by exact ha) (by exact hv) (by simpa using h1)]
  by_cases hst : st1 = 0
  · subst hst
    rfl
  · rw [statusOk_ne hst, if_neg hst]
    rfl

end ReadStatus

/-- Settles O19: after the Send, the exits are those of the Receive and of the check. -/
theorem readStatusDeliversOnEachExit : Obligations.ReadStatusDeliversOnEachExit := by
  intro s a st0 buf0 hc ha hs h0
  refine ⟨readStatus_send_fails hc ha hs h0, fun st1 buf hst0 hv h1 => ?_⟩
  subst hst0
  have received := readStatus_receives hc ha hs hv h0 h1
  refine ⟨fun hst => ?_, fun hst hcrc => ?_, fun st2 buf2 hst hcrc hb h2 => ?_⟩
  · rw [received, if_neg hst]
    rfl
  · rw [received, if_pos hst, crcCheck_default (by exact hcrc)]
    rfl
  · rw [received, if_pos hst, crcCheck_ext (by exact hcrc) (by exact hb) (by
      simpa [State.statusAsked] using h2)]
    by_cases hst2 : st2 = 0
    · subst hst2
      rfl
    · rw [statusOk_ne hst2, if_neg hst2]
      rfl

/-! ### Init -/

/-- What Init has written before its first call, as one update of the handle. -/
theorem initPrepared_eq {sel : Nat} {r : Reg BusAddr}
    (hres : resolveAddr s.cfg.addrDefaultPolicy s.h.addr sel = r) : s.initPrepared sel =
      { s with h := { s.h with
          addr := r, crc := if s.h.crc = CrcBinding.unbound then .default else s.h.crc } } := by
  unfold State.initPrepared State.installCrc
  cases hcrc : s.h.crc <;> simp [State.setCrc, State.resolve, hcrc, hres]

section Init
variable {sel : Nat} (hc : s.cfg.clockStretch = false)
include hc

theorem init_unbound (hreq : requiredBound s.cfg = false) :
    exec (.init sel) s = .next ((s.resolve sel).finish .invalidParam) := by
  simp only [exec, execInit, startOperation_runs hc, resolve_cfg, goto_cfg, hreq]
  rfl

theorem init_noPlatform (hreq : requiredBound s.cfg = true) (hi : s.cfg.hasInit = false) :
    exec (.init sel) s = initBaseline ((s.goto .init 1).initPrepared sel) := by
  simp only [exec, execInit, startOperation_runs hc, resolve_cfg, goto_cfg, installCrc_cfg, hreq, hi]
  rfl

theorem init_platform {st : Status} {buf : RxBuf} (hreq : requiredBound s.cfg = true)
    (hi : s.cfg.hasInit = true) (h0 : s.answerAt 0 = .returns st buf) :
    exec (.init sel) s =
      if st = 0 then initBaseline ((((s.goto .init 1).initPrepared sel).goto .init 4).afterCall .platformInit 0)
      else returnResult .fail (((s.goto .init 1).initPrepared sel).afterCall .platformInit st) := by
  simp only [exec, execInit, startOperation_runs hc, resolve_cfg, goto_cfg, installCrc_cfg, hreq, hi, if_true,
    platformCall]
  rw [callAdapter_returns (st := st) (buf := buf) (by simpa [capabilityBound, Call.capability] using hi)
    (by simpa using h0)]
  by_cases hst : st = 0
  · subst hst
    rfl
  · rw [statusOk_ne hst, if_neg hst]
    rfl

end Init

/-- The baseline, the soft reset and, on its success, the settling delay. -/
theorem initBaseline_returns {st0 st1 : Status} {buf0 buf1 : RxBuf} (ha : s.h.addr = some a)
    (hs : s.cfg.hasSend = true) (hd : s.cfg.hasDelay = true) (h0 : s.answerAt 0 = .returns st0 buf0)
    (h1 : s.answerAt 1 = .returns st1 buf1) :
    initBaseline s = .next (if st0 = 0
      then ((s.baseline.afterSend a 0x30 0xA2 0).afterCall (.delay 2) st1).finish .ok
      else (s.baseline.afterSend a 0x30 0xA2 st0).finish .fail) := by
  rw [initBaseline, writeCommand_returns (by exact ha) (by exact hs) (by exact h0)]
  by_cases hst : st0 = 0
  · subst hst
    rw [statusOk_zero, if_pos rfl, delay_returns (st := st1) (buf := buf1) (by exact hd) (by simpa using h1)]
    rfl
  · rw [statusOk_ne hst, if_neg hst]
    rfl

theorem requiredBound_eq_false {c : Config} (h : c.hasSend = false ∨ c.hasRecv = false ∨ c.hasDelay = false) :
    requiredBound c = false := by
  rcases h with h | h | h <;> simp [requiredBound, h]

theorem requiredBound_eq_true {c : Config} (hs : c.hasSend = true) (hv : c.hasRecv = true)
    (hd : c.hasDelay = true) : requiredBound c = true := by
  simp [requiredBound, hs, hv, hd]

/-- Settles O20: the capabilities are looked at after the address is written and before any call. -/
theorem initWithoutARequiredCapability : Obligations.InitWithoutARequiredCapability :=
  fun _ _ hc h => init_unbound hc (requiredBound_eq_false h)

/-- Settles O21: with nothing to call, Init is the baseline on the prepared state. -/
theorem initWithoutPlatformInit : Obligations.InitWithoutPlatformInit := by
  intro s sel a st0 st1 buf0 buf1 hc hi hs hv hd hres h0 h1 u
  rw [init_noPlatform hc (requiredBound_eq_true hs hv hd) hi, initPrepared_eq (by exact hres),
    initBaseline_returns (by exact rfl) (by exact hs) (by exact hd) (by exact h0) (by exact h1)]
  refine ⟨fun hst => ?_, fun hst => ?_⟩
  · rw [if_neg hst]
    rfl
  · rw [if_pos hst]
    rfl

/-- Settles O22: the platform's answer decides whether the baseline follows. -/
theorem initWithPlatformInit : Obligations.InitWithPlatformInit := by
  intro s sel a st0 st1 st2 buf0 buf1 buf2 hc hi hs hv hd hres h0 h1 h2 u v
  rw [init_platform hc (requiredBound_eq_true hs hv hd) hi h0, initPrepared_eq (by exact hres),
    initBaseline_returns (st0 := st1) (buf0 := buf1) (st1 := st2) (buf1 := buf2) (by exact rfl) (by exact hs)
      (by exact hd) (by rw [answerAt_afterCall]; exact h1) (by rw [answerAt_afterCall]; exact h2)]
  refine ⟨fun hst0 => ?_, fun hst0 hst1 => ?_, fun hst0 hst1 => ?_⟩
  · rw [if_neg hst0]
    rfl
  · rw [if_pos hst0, if_neg hst1]
    rfl
  · rw [if_pos hst0, if_pos hst1]
    rfl

/-! ### DeInit -/

/-- Settles O23: one rule without the platform's call and one with it. -/
theorem deInitCallsPlatformDeInit : Obligations.DeInitCallsPlatformDeInit := by
  intro s hc
  refine ⟨fun hd => ?_, fun st buf hd hr => ?_⟩
  · simp only [exec, execDeInit, startOperation_runs hc, goto_cfg, hd]
    rfl
  · simp only [exec, execDeInit, startOperation_runs hc, goto_cfg, hd, if_true, platformCall]
    rw [callAdapter_returns (by exact hd) (by exact hr)]
    by_cases hst : st = 0
    · subst hst
      rfl
    · rw [statusOk_ne hst, if_neg hst]
      rfl

end Sys2Proof.Machine
end

section
/-! ReadSample call by call (`41_sample_acquisition.md` R80 to R87): the common tail, the Periodic and ART path, the
SingleShot path with its poll loop. -/

namespace Sys2Proof.Machine

variable {s : State} {a : BusAddr} {k : Nat} {buf : RxBuf}

/-! ### The tail: decode, check, convert -/

section Tail
variable (hrx : s.rxbuf = buf)
include hrx

theorem sampleTail_default (h : s.h.crc = .default) :
    sampleTail s = .next (((s.setRaw buf.word0 buf.word3).convert buf.word0 buf.word3).finish .ok) := by
  subst hrx
  rw [sampleTail, crcCheck_default (by exact h), if_pos rfl, crcCheck_default (by exact h), if_pos rfl]
  rfl

variable (h : s.h.crc = .ext) (hb : s.cfg.hasCrc = true)
include h hb

theorem sampleTail_temperature_fails {st : Status} {buf0 : RxBuf} (h0 : s.answerAt 0 = .returns st buf0)
    (hst : st ≠ 0) :
    sampleTail s = .next
      (((s.setRaw buf.word0 buf.word3).afterCall (.crc buf.word0 buf.b2) st).finish .crcError) := by
  subst hrx
  rw [sampleTail, crcCheck_ext (by exact h) (by exact hb) (by exact h0), statusOk_ne hst]
  rfl

/-- The temperature check passed: the humidity check decides. -/
theorem sampleTail_humidity_checked {st : Status} {buf0 buf1 : RxBuf} (h0 : s.answerAt 0 = .returns 0 buf0)
    (h1 : s.answerAt 1 = .returns st buf1) :
    sampleTail s = .next (if st = 0
      then ((((s.setRaw buf.word0 buf.word3).afterCall (.crc buf.word0 buf.b2) 0).afterCall
        (.crc buf.word3 buf.b5) 0).convert buf.word0 buf.word3).finish .ok
      else (((s.setRaw buf.word0 buf.word3).afterCall (.crc buf.word0 buf.b2) 0).afterCall
        (.crc buf.word3 buf.b5) st).finish .crcError) := by
  subst hrx
  rw [sampleTail, crcCheck_ext (by exact h) (by exact hb) (by exact h0), statusOk_zero, if_pos rfl,
    crcCheck_ext (by exact h) (by exact hb) (by
      rw [answerAt_goto, answerAt_afterCall]
      exact h1)]
  by_cases hst : st = 0
  · subst hst
    rfl
  · rw [statusOk_ne hst, if_neg hst]
    rfl

/-- The adapter's check in full: what is kept, what is written, which calls are made (R85, R86, R87). -/
theorem sampleTail_ext {st0 st1 : Status} {buf0 buf1 : RxBuf} (h0 : s.answerAt 0 = .returns st0 buf0)
    (h1 : s.answerAt 1 = .returns st1 buf1) :
    ∃ t, sampleTail s = .next t ∧ KeptByRead s t ∧
      t.sample.tRaw = some buf.word0 ∧ t.sample.hRaw = some buf.word3 ∧
      (st0 = 0 ∧ st1 = 0 → t.res = some .ok ∧
        t.sample.celsius = some (Config.roundFlt (celsiusQ buf.word0)) ∧
        t.sample.fahrenheit = some (Config.roundFlt (fahrenheitQ buf.word0)) ∧
        t.sample.humidity = some (Config.roundFlt (humidityQ buf.word3))) ∧
      (¬ (st0 = 0 ∧ st1 = 0) → t.res = some .crcError ∧ t.sample.celsius = s.sample.celsius ∧
        t.sample.fahrenheit = s.sample.fahrenheit ∧ t.sample.humidity = s.sample.humidity) ∧
      t.trace = s.trace ++ [⟨.crc buf.word0 buf.b2, .status st0⟩] ++
        if st0 = 0 then [⟨.crc buf.word3 buf.b5, .status st1⟩] else [] := by
  by_cases hst0 : st0 = 0
  · subst hst0
    have htail := sampleTail_humidity_checked hrx h hb h0 h1
    by_cases hst1 : st1 = 0
    · subst hst1
      rw [if_pos rfl] at htail
      exact ⟨_, htail, ⟨rfl, rfl, rfl, rfl, rfl⟩, rfl, rfl, fun _ => ⟨rfl, rfl, rfl, rfl⟩,
        fun hn => absurd ⟨rfl, rfl⟩ hn, rfl⟩
    · rw [if_neg hst1] at htail
      exact ⟨_, htail, ⟨rfl, rfl, rfl, rfl, rfl⟩, rfl, rfl, fun hp => absurd hp.2 hst1,
        fun _ => ⟨rfl, rfl, rfl, rfl⟩, rfl⟩
  · refine ⟨_, sampleTail_temperature_fails hrx h hb h0 hst0, ⟨rfl, rfl, rfl, rfl, rfl⟩, rfl, rfl,
      fun hp => absurd hp.1 hst0, fun _ => ⟨rfl, rfl, rfl, rfl⟩, ?_⟩
    rw [if_neg hst0, List.append_nil]
    rfl

end Tail

/-- The tail does not depend on where the sequencer stands. -/
theorem sampleTail_setSeq (q : Seq) : sampleTail (s.setSeq q) = sampleTail s := rfl

/-! ### Which path -/

section Paths
variable (hc : s.cfg.clockStretch = false)
include hc

theorem readSample_fetch (hm : s.h.mode = some .periodic ∨ s.h.mode = some .art) :
    exec .readSample s = fetchPath (s.goto .readSample 1) := by
  rcases hm with hm | hm <;> simp only [exec, execReadSample, startOperation_runs hc, goto_h, hm]

theorem readSample_single (hm : s.h.mode = some .singleShot) :
    exec .readSample s = singleShotPath (s.goto .readSample 1) := by
  simp only [exec, execReadSample, startOperation_runs hc, goto_h, hm]

end Paths

/-- Settles O32: the mode is looked at before any call. -/
theorem reservedModeGivesInvalidParam : Obligations.ReservedModeGivesInvalidParam := by
  intro s hc hm
  simp only [exec, execReadSample, startOperation_runs hc, goto_h, hm]
  rfl

/-! ### Periodic and ART -/

section Fetch
variable (ha : s.h.addr = some a) (hs : s.cfg.hasSend = true)
include ha hs

theorem fetchPath_send_fails {st : Status} (h0 : s.answerAt 0 = .returns st buf) (hst : st ≠ 0) :
    fetchPath s = .next ((s.afterSend a 0xE0 0x00 st).finish .fail) := by
  rw [fetchPath, writeCommand_returns (by exact ha) (by exact hs) (by exact h0), statusOk_ne hst]
  rfl

/-- The one Receive: a frame for the tail, or the end of the read. -/
theorem fetchPath_receives {st : Status} {buf0 : RxBuf} (hv : s.cfg.hasRecv = true)
    (h0 : s.answerAt 0 = .returns 0 buf0) (h1 : s.answerAt 1 = .returns st buf) :
    fetchPath s =
      if st = 0 then sampleTail ((s.afterSend a 0xE0 0x00 0).afterRecv a 6 0 buf)
      else .next (((s.afterSend a 0xE0 0x00 0).afterRecv a 6 st buf).finish
        (if st = s.cfg.nackCode then .noData else .fail)) := by
  rw [fetchPath, writeCommand_returns (by exact ha) (by exact hs) (by exact h0), statusOk_zero, if_pos rfl,
    busRecv_returns (a := a) (by exact ha) (by exact hv) (by
      rw [answerAt_goto, answerAt_afterSend]
      exact h1)]
  simp only [afterRecv_cfg, goto_cfg, afterSend_cfg]
  rcases classifyRecv_cases s.cfg st with ⟨hc, rfl⟩ | ⟨hc, hst, hn⟩ | ⟨hc, hst, hn⟩
  · rw [hc, if_pos rfl, ← sampleTail_setSeq (.running .readSample 3)]
    rfl
  · rw [hc, if_neg hst, if_pos hn]
    rfl
  · rw [hc, if_neg hst, if_neg hn]
    rfl

end Fetch

/-- Settles O24: the exits of the fetch path before a frame, the Receive's by the class of its status. -/
theorem fetchFailuresAreToldApart : Obligations.FetchFailuresAreToldApart := by
  intro s a st0 buf0 hc hm ha hs h0
  rw [readSample_fetch hc hm]
  refine ⟨fetchPath_send_fails (by exact ha) (by exact hs) (by exact h0), fun st1 buf hst0 hv h1 hst1 => ?_⟩
  subst hst0
  rw [fetchPath_receives (by exact ha) (by exact hs) (by exact hv) (by exact h0) (by exact h1), if_neg hst1]
  rfl

/-- A fetched frame goes to the tail. -/
theorem readSample_fetched {buf0 : RxBuf} (hc : s.cfg.clockStretch = false)
    (hm : s.h.mode = some .periodic ∨ s.h.mode = some .art) (ha : s.h.addr = some a)
    (hs : s.cfg.hasSend = true) (hv : s.cfg.hasRecv = true) (h0 : s.answerAt 0 = .returns 0 buf0)
    (h1 : s.answerAt 1 = .returns 0 buf) :
    exec .readSample s = sampleTail ((s.afterSend a 0xE0 0x00 0).afterRecv a 6 0 buf) := by
  rw [readSample_fetch hc hm,
    fetchPath_receives (by exact ha) (by exact hs) (by exact hv) (by exact h0) (by exact h1), if_pos rfl]
  exact sampleTail_setSeq (s := (s.afterSend a 0xE0 0x00 0).afterRecv a 6 0 buf) _

/-- Settles O25: the default check passes both words, and no guard stands on this path. -/
theorem fetchDeliversASample : Obligations.FetchDeliversASample := by
  intro s a buf0 buf hc hm ha hs hv hcrc h0 h1
  rw [readSample_fetched hc hm ha hs hv h0 h1, sampleTail_default (buf := buf) rfl (by exact hcrc)]
  rfl

/-- Settles O26: answer 2 is the temperature check's, and answer 3 the humidity check's if it is made. -/
theorem fetchChecksTemperatureFirst : Obligations.FetchChecksTemperatureFirst := by
  intro s a buf0 buf st2 st3 buf2 buf3 hc hm ha hs hv hcrc hb h0 h1 h2 h3 tw hw u v
  rw [readSample_fetched hc hm ha hs hv h0 h1]
  have ans (k : Nat) : ((s.afterSend a 0xE0 0x00 0).afterRecv a 6 0 buf).answerAt k = s.answerAt (k + 2) := by
    simp
  refine ⟨fun hst2 => ?_, fun hst2 hst3 => ?_, fun hst2 hst3 => ?_⟩
  · rw [sampleTail_temperature_fails (buf := buf) rfl (by exact hcrc) (by exact hb) (by rw [ans]; exact h2) hst2]
    rfl
  all_goals
    subst hst2
    rw [sampleTail_humidity_checked (buf := buf) rfl (by exact hcrc) (by exact hb) (by rw [ans]; exact h2)
      (by rw [ans]; exact h3)]
  · rw [if_neg hst3]
    rfl
  · subst hst3
    rw [if_pos rfl]
    rfl

/-! ### SingleShot -/

@[simp] theorem attempt_cfg (left : Nat) : (s.attempt left).cfg = s.cfg := rfl

@[simp] theorem attempt_h (left : Nat) : (s.attempt left).h = s.h := rfl

@[simp] theorem answerAt_attempt (left k : Nat) : (s.attempt left).answerAt k = s.answerAt k := rfl

/-- What a row of the single-shot table says: its bytes are those of the code of its repeatability. -/
theorem singleShotTable_rows : ∀ row ∈ singleShotTable,
    singleShotCmd row.1 = some (word16 row.2.1 row.2.2) ∧
    hiByte (word16 row.2.1 row.2.2) = row.2.1 ∧ loByte (word16 row.2.1 row.2.2) = row.2.2 := by
  decide

/-- The SingleShot path after the poll loop (R83). -/
def afterPolls (got : Bool) (s : State) : Out :=
  if got then if zeroCrcGuard s.rxbuf then returnResult .fail s else sampleTail s
  else returnResult .fail s

variable {row : Repeatability × Byte × Byte}

/-- The command of the repeatability, and the poll loop if it was sent. -/
theorem singleShotPath_eq (hrow : row ∈ singleShotTable) (hrep : s.h.rep = some row.1) :
    singleShotPath s = writeCommand (word16 row.2.1 row.2.2) (s.goto .readSample 2) fun sent s =>
      if sent then pollLoop nPoll s afterPolls else returnResult .fail s := by
  simp only [singleShotPath, hrep, (singleShotTable_rows row hrow).1]
  rfl

/-- Settles O27: a legal repeatability has a command, and its failed Send skips the poll loop. -/
theorem singleShotFailedSendEndsTheRead : Obligations.SingleShotFailedSendEndsTheRead := by
  intro row hrow s a st buf hc hm hrep ha hs h0 hst
  obtain ⟨-, hhi, hlo⟩ := singleShotTable_rows row hrow
  rw [readSample_single hc hm, singleShotPath_eq hrow (by exact hrep),
    writeCommand_returns (by exact ha) (by exact hs) (by exact h0), statusOk_ne hst, hhi, hlo]
  rfl

/-- A single-shot read after its Send of a row's code, answered 0, and before the poll loop. -/
def State.singleSent (s : State) (a : BusAddr) (row : Repeatability × Byte × Byte) : State :=
  (s.goto .readSample 2).afterSend a row.2.1 row.2.2 0

@[simp] theorem singleSent_cfg : (s.singleSent a row).cfg = s.cfg := rfl

@[simp] theorem singleSent_h : (s.singleSent a row).h = s.h := rfl

@[simp] theorem answerAt_singleSent (k : Nat) : (s.singleSent a row).answerAt k = s.answerAt (k + 1) := by
  rw [State.singleSent, answerAt_afterSend]
  rfl

@[simp] theorem singleSent_trace : (s.singleSent a row).trace =
    s.trace ++ [⟨.send a row.2.1 row.2.2, .status 0⟩] := rfl

/-- A read whose Send succeeded stands before the poll loop. -/
theorem readSample_sent {buf0 : RxBuf} (hrow : row ∈ singleShotTable) (hc : s.cfg.clockStretch = false)
    (hm : s.h.mode = some .singleShot) (hrep : s.h.rep = some row.1) (ha : s.h.addr = some a)
    (hs : s.cfg.hasSend = true) (h0 : s.answerAt 0 = .returns 0 buf0) :
    exec .readSample s = pollLoop 20 (s.singleSent a row) afterPolls := by
  obtain ⟨-, hhi, hlo⟩ := singleShotTable_rows row hrow
  rw [readSample_single hc hm, singleShotPath_eq hrow (by exact hrep),
    writeCommand_returns (by exact ha) (by exact hs) (by exact h0), statusOk_zero, hhi, hlo]
  rfl

theorem Polled.trans {t u : State} (h : Polled s t) (h' : Polled t u) : Polled s u :=
  ⟨h'.cfg.trans h.cfg, h'.h.trans h.h, h'.sample.trans h.sample, h'.stValue.trans h.stValue,
    h'.host.trans h.host, h'.returns⟩

theorem statusAt_eq_some {st : Status} (h : s.statusAt k = some st) : ∃ buf, s.answerAt k = .returns st buf := by
  unfold State.statusAt at h
  split at h
  next st' buf hans =>
    cases h
    exact ⟨buf, hans⟩
  next => cases h

theorem eventAt_of_returns {st : Status} (h : s.answerAt k = .returns st buf) (c : Call) :
    s.eventAt k c = ⟨c, c.reply st buf⟩ := by
  simp only [State.eventAt, h]

/-- The read after its Send and k failed attempts (R82, D9): nothing but the sequencer, the scratch registers and the
trace has changed. -/
theorem readSample_polls (hrow : row ∈ singleShotTable) (h : SingleShotSent s a row) (hk : k ≤ 20)
    (hfail : ∀ j < k, s.statusAt (1 + 2 * j) ≠ some 0) :
    ∃ t, exec .readSample s = pollLoop (20 - k) t afterPolls ∧ Polled s t ∧
      (∀ i, t.answerAt i = s.answerAt (i + 2 * k + 1)) ∧
      t.trace = s.trace ++ s.eventAt 0 (.send a row.2.1 row.2.2) :: s.pollEvents a k := by
  obtain ⟨hc, hm, hrep, ha, hs, hv, hd, hret, h0⟩ := h
  obtain ⟨buf0, h0⟩ := statusAt_eq_some h0
  have hev (i : Nat) (c : Call) : (s.singleSent a row).eventAt i c = s.eventAt (i + 1) c := by
    simp only [State.eventAt, answerAt_singleSent]
  have hsent : Polled s (s.singleSent a row) :=
    ⟨rfl, rfl, rfl, rfl, rfl, fun x hx => hret x (List.mem_of_mem_tail hx)⟩
  obtain ⟨t, ht, hpolled, hans, htrace⟩ := pollLoop_fails (s := s.singleSent a row) (a := a) (k := afterPolls)
    k 20 ha hv hd hsent.returns hk fun j hj => by
      rw [State.statusAt, answerAt_singleSent, Nat.add_comm]
      exact hfail j hj
  refine ⟨t, (readSample_sent hrow hc hm hrep ha hs h0).trans ht, hsent.trans hpolled,
    fun i => by rw [hans, answerAt_singleSent], ?_⟩
  have hcomm (j : Nat) : 1 + 2 * j = 2 * j + 1 ∧ 2 + 2 * j = 2 * j + 1 + 1 := by omega
  rw [htrace, eventAt_of_returns h0]
  simp only [hev, State.pollEvents, hcomm, singleSent_trace, List.append_assoc]
  rfl

/-- The read when attempt k + 1 is the first to receive a frame. -/
theorem readSample_receives (hrow : row ∈ singleShotTable) (h : SingleShotSent s a row) (hk : k < 20)
    (hfail : ∀ j < k, s.statusAt (1 + 2 * j) ≠ some 0) (hrecv : s.answerAt (1 + 2 * k) = .returns 0 buf) :
    ∃ t, exec .readSample s = afterPolls true t ∧ Polled s t ∧ t.rxbuf = buf ∧
      (∀ i, t.answerAt i = s.answerAt (i + 2 + 2 * k)) ∧
      t.trace = s.trace ++ s.eventAt 0 (.send a row.2.1 row.2.2) :: s.pollEvents a k ++
        [⟨.recv a 6, .received 0 buf.bytes⟩] := by
  obtain ⟨u, hu, hpolled, hans, htrace⟩ := readSample_polls hrow h hk.le hfail
  obtain ⟨-, -, -, ha, -, hv, -⟩ := h
  obtain ⟨left, hleft⟩ : ∃ left, 20 - k = left + 1 := ⟨19 - k, by omega⟩
  have hu0 : u.answerAt 0 = .returns 0 buf := by
    rw [hans, ← hrecv]
    congr 1
    omega
  refine ⟨(u.attempt left).afterRecv a lenMeas 0 buf, ?_, ?_, rfl, fun i => ?_, ?_⟩
  · rw [hu, hleft, pollLoop_succ, busRecv_returns (s := u.attempt left) (hpolled.h ▸ ha) (hpolled.cfg ▸ hv) hu0,
      statusOk_zero, if_pos rfl]
  · exact ⟨hpolled.cfg, hpolled.h, hpolled.sample, hpolled.stValue, hpolled.host,
      fun x hx => hpolled.returns x (List.mem_of_mem_tail hx)⟩
  · rw [answerAt_afterRecv, answerAt_attempt, hans]
    congr 1
    omega
  · rw [afterRecv_trace, attempt_trace, htrace]
    rfl

/-- A read keeps what the poll loop and the rest of it keep. -/
theorem Polled.keptByRead {t u : State} (h : Polled s t) (h' : KeptByRead t u) : KeptByRead s u := by
  obtain ⟨hcfg, hh, hv, hhost, hseq⟩ := h'
  exact ⟨hcfg.trans h.cfg, hh.trans h.h, hv.trans h.stValue, hhost.trans h.host, hseq⟩

theorem keptByRead_finish (s : State) (r : Result) : KeptByRead s (s.finish r) := ⟨rfl, rfl, rfl, rfl, rfl⟩

/-- Settles O28: after twenty failed attempts the poll loop has none left. -/
theorem singleShotTwentyFailuresGiveFail : Obligations.SingleShotTwentyFailuresGiveFail := by
  intro row hrow s a h hfail
  obtain ⟨t, ht, hpolled, -, htrace⟩ := readSample_polls hrow h le_rfl hfail
  exact ⟨t.finish .fail, ht, hpolled.keptByRead (keptByRead_finish t _), rfl, hpolled.sample, htrace⟩

theorem zeroCrcGuard_iff (b : RxBuf) : zeroCrcGuard b = true ↔ b.b2 = 0 ∧ b.b5 = 0 := by
  simp [zeroCrcGuard]

theorem afterPolls_guarded (hrx : s.rxbuf = buf) (h2 : buf.b2 = 0) (h5 : buf.b5 = 0) :
    afterPolls true s = .next (s.finish .fail) := by
  rw [afterPolls, if_pos rfl, hrx, if_pos ((zeroCrcGuard_iff buf).2 ⟨h2, h5⟩)]
  rfl

theorem afterPolls_tail (hrx : s.rxbuf = buf) (h : buf.b2 ≠ 0 ∨ buf.b5 ≠ 0) :
    afterPolls true s = sampleTail s := by
  have hguard : ¬ zeroCrcGuard buf = true := by
    rw [zeroCrcGuard_iff]
    tauto
  rw [afterPolls, if_pos rfl, hrx, if_neg hguard]

/-- Settles O29: the frame of attempt k + 1 meets the guard before the tail. -/
theorem singleShotZeroCrcGuardGivesFail : Obligations.SingleShotZeroCrcGuardGivesFail := by
  intro row hrow s a k buf h hk hfail hrecv h2 h5
  obtain ⟨t, ht, hpolled, hrx, -, htrace⟩ := readSample_receives hrow h hk hfail hrecv
  exact ⟨t.finish .fail, ht.trans (afterPolls_guarded hrx h2 h5),
    hpolled.keptByRead (keptByRead_finish t _), rfl, hpolled.sample, htrace⟩

/-- Settles O30: past the guard, the tail with the default check delivers. -/
theorem singleShotDeliversASample : Obligations.SingleShotDeliversASample := by
  intro row hrow s a k buf h hcrc hk hfail hrecv hguard
  obtain ⟨t, ht, hpolled, hrx, -, htrace⟩ := readSample_receives hrow h hk hfail hrecv
  have hread := (ht.trans (afterPolls_tail hrx hguard)).trans (sampleTail_default hrx (hpolled.h ▸ hcrc))
  exact ⟨_, hread, hpolled.keptByRead ⟨rfl, rfl, rfl, rfl, rfl⟩, rfl, rfl, htrace⟩

/-- Settles O31: the two answers after the frame's are those of the checks. -/
theorem singleShotChecksTemperatureFirst : Obligations.SingleShotChecksTemperatureFirst := by
  intro row hrow s a k buf h hcrc hb hk hfail hrecv hguard tw hw tOk hOk
  obtain ⟨u, hu, hpolled, hrx, hans, htrace⟩ := readSample_receives hrow h hk hfail hrecv
  obtain ⟨st0, buf0, h0⟩ := answerAt_of_returns hpolled.returns 0
  obtain ⟨st1, buf1, h1⟩ := answerAt_of_returns hpolled.returns 1
  obtain ⟨t, ht, hkept, htraw, hhraw, hpass, hnot, htraceT⟩ :=
    sampleTail_ext hrx (hpolled.h ▸ hcrc) (hpolled.cfg ▸ hb) h0 h1
  have h0s : s.answerAt (2 + 2 * k) = .returns st0 buf0 := by rw [← h0, hans, Nat.zero_add]
  have h1s : s.answerAt (3 + 2 * k) = .returns st1 buf1 := by rw [← h1, hans]
  have hT : tOk ↔ st0 = 0 := by simp only [tOk, statusAt_of_returns h0s, Option.some.injEq]
  have hH : hOk ↔ st1 = 0 := by simp only [hOk, statusAt_of_returns h1s, Option.some.injEq]
  refine ⟨t, (hu.trans (afterPolls_tail hrx hguard)).trans ht, hpolled.keptByRead hkept, htraw, hhraw,
    fun hp => hpass (and_congr hT hH |>.1 hp), fun hn => ?_, ?_⟩
  · rw [← hpolled.sample]
    exact hnot (mt (and_congr hT hH).2 hn)
  · rw [htraceT, htrace, eventAt_of_returns h0s, eventAt_of_returns h1s]
    simp only [show (s.statusAt (2 + 2 * k) = some 0) = (st0 = 0) from propext hT, List.append_assoc]
    rfl

end Sys2Proof.Machine
end

section
/-! Where the spec gives no meaning (`10_state.md` R29, `60_exceptions.md` section 1, D8, D24), and the Init after which
none of that is met (`70_reset_and_hazards.md` R123). -/

namespace Sys2Proof.Machine

variable {s t : State} {a : BusAddr} {i : Instr}

/-! ### Init that ended in Ok -/

/-- What an Init that ended in `Ok` has done (R98). -/
structure InitDone (s t : State) (sel : Nat) : Prop where
  bound : requiredBound s.cfg = true
  cfg : t.cfg = s.cfg
  h : t.h = ⟨resolveAddr s.cfg.addrDefaultPolicy s.h.addr sel, some .singleShot, some .low, s.h.speed,
    if s.h.crc = CrcBinding.unbound then .default else s.h.crc⟩
  addr : t.h.addr ≠ none
  sample : t.sample = s.sample
  stValue : t.stValue = s.stValue

theorem init_ok_initDone {sel : Nat} (he : exec (.init sel) s = .next t) (hidle : t.seq = .idle)
    (hok : t.res = some .ok) : InitDone s t sel := by
  have main : AllNext (fun t => t.seq = .idle → t.res = some .ok → InitDone s t sel) (fun _ => True)
      (exec (.init sel) s) := by
    refine init_all (P := AllNext _ _) (fun _ => trivial) (fun _ _ => nofun) (fun _ _ => nofun)
      (fun _ _ _ _ => nofun) fun u hreq hu => ?_
    have hu' : u.cfg = s.cfg ∧ u.h = (s.initPrepared sel).h ∧ u.sample = s.sample ∧ u.stValue = s.stValue := by
      rcases hu with ⟨hu, -⟩ | ⟨hu, -⟩ <;> rw [hu] <;> simp [State.initPrepared]
    obtain ⟨hcfg, hh, hsample, hv⟩ := hu'
    rw [initPrepared_eq rfl] at hh
    refine initBaseline_all (P := AllNext _ _) (fun _ _ => trivial) (fun _ _ _ => nofun) (fun _ _ _ _ _ => nofun)
      (fun _ _ _ => nofun) fun a st ha _ _ => ?_
    exact {
      bound := hreq
      cfg := hcfg
      h := congrArg (fun h : Handle => { h with mode := some .singleShot, rep := some .low }) hh
      addr := by
        have haddr : u.h.addr ≠ none := by simp [ha]
        exact haddr
      sample := hsample
      stValue := hv }
  exact main.of_eq he hidle hok

/-- Settles O40: the capabilities were checked, the address was needed by the soft reset, the slot was filled. -/
theorem initOkMakesTheBlockReady : Obligations.InitOkMakesTheBlockReady := by
  intro s t sel hinv he hidle hok
  obtain ⟨hbound, hcfg, hh, haddr, hsample, hv⟩ := init_ok_initDone he hidle hok
  simp only [requiredBound, Bool.and_eq_true] at hbound
  obtain ⟨⟨hs, hr⟩, hd⟩ := hbound
  have hstretch : s.cfg.clockStretch = false := by
    cases hc : s.cfg.clockStretch with
    | false => rfl
    | true =>
      rw [exec_refused _ hc] at he
      cases he
  have hready : Ready t := by
    constructor
    case addr => exact haddr
    case crc =>
      rw [hh]
      show (if s.h.crc = .unbound then CrcBinding.default else s.h.crc) ≠ .unbound
      split
      · decide
      · assumption
    case ext =>
      rw [hh, hcfg, ← hinv.crc]
      show (if s.h.crc = .unbound then CrcBinding.default else s.h.crc) = .ext → s.h.crc = .ext
      split
      · nofun
      · exact id
    all_goals simp [hh, hcfg, hstretch, hs, hr, hd]
  refine ⟨hready, ?_, ?_, ?_, ?_, hsample, hv⟩ <;> rw [hh]

/-! ### The first line of an instruction that can fault -/

theorem writeCommand_no_addr {cmd : Word} {k : Bool → State → Out} (h : s.h.addr = none) :
    writeCommand cmd s k = .fault (.registerHoldsNoValue .addr) := readAddr_none h

theorem writeCommand_unbound {cmd : Word} {k : Bool → State → Out} (ha : s.h.addr = some a)
    (hs : s.cfg.hasSend = false) : writeCommand cmd s k = .fault (.capabilityUnbound .send) := by
  rw [writeCommand, readAddr_some ha, callAdapter_unbound (by exact hs)]
  rfl

theorem busRecv_unbound {n : Nat} {k : Status → State → Out} (ha : s.h.addr = some a)
    (hr : s.cfg.hasRecv = false) : busRecv n s k = .fault (.capabilityUnbound .recv) := by
  rw [busRecv, readAddr_some ha, callAdapter_unbound (by exact hr)]
  rfl

theorem delay_unbound {ms : Nat} {k : State → Out} (hd : s.cfg.hasDelay = false) :
    delay ms s k = .fault (.capabilityUnbound .delay) := by
  rw [delay, callAdapter_unbound (by exact hd)]
  rfl

theorem crcCheck_ext_unbound {v : Word} {c : Byte} {k : Bool → State → Out} (h : s.h.crc = .ext)
    (hb : s.cfg.hasCrc = false) : crcCheck v c s k = .fault (.capabilityUnbound .crcCheck) := by
  simp only [crcCheck, h]
  rw [callAdapter_unbound (by exact hb)]
  rfl

theorem sampleTail_unbound (h : s.h.crc = .unbound) : sampleTail s = .fault .crcUnbound := by
  rw [sampleTail, crcCheck_unbound (by exact h)]

/-- The first line of the outcome is a Send: everything before it went on. -/
def StartsWithSend (i : Instr) (s : State) : Prop :=
  ∃ cmd q k, exec i s = writeCommand cmd (s.setSeq q) k

theorem startsWithSend_of_eq {cmd : Word} {k : Bool → State → Out} (q : Seq)
    (h : exec i s = writeCommand cmd (s.setSeq q) k) : StartsWithSend i s := ⟨cmd, q, k, h⟩

theorem StartsWithSend.no_addr (h : StartsWithSend i s) (ha : s.h.addr = none) :
    exec i s = .fault (.registerHoldsNoValue .addr) := by
  obtain ⟨cmd, q, k, he⟩ := h
  rw [he, writeCommand_no_addr (by exact ha)]

theorem StartsWithSend.unbound (h : StartsWithSend i s) (ha : s.h.addr = some a) (hs : s.cfg.hasSend = false) :
    exec i s = .fault (.capabilityUnbound .send) := by
  obtain ⟨cmd, q, k, he⟩ := h
  rw [he, writeCommand_unbound (by exact ha) (by exact hs)]

section Sends
variable (hc : s.cfg.clockStretch = false)
include hc

theorem issueCommand_startsWithSend {w : Word} (h : ∀ s, exec i s = issueCommand w s) : StartsWithSend i s := by
  apply startsWithSend_of_eq .command
  simp only [h, issueCommand, inSpecifiedConfig, hc, Bool.false_eq_true, if_false]
  rfl

theorem sendsFirst_startsWithSend {speed rep enabled : Nat} (hspeed : speed ≤ 4) (hrep : rep ≤ 2)
    (hi : i ∈ sendsFirst speed rep enabled) : StartsWithSend i s := by
  obtain ⟨r, hr⟩ := Option.isSome_iff_exists.1 ((repOperand_isSome_iff rep).2 hrep)
  obtain ⟨v, hv⟩ := Option.isSome_iff_exists.1 ((speedOperand_isSome_iff speed).2 hspeed)
  obtain ⟨w, -, hw⟩ := periodicCmd_operands hv hr
  rcases List.mem_append.1 hi with hi | hi
  · simp only [List.mem_cons, List.not_mem_nil, or_false] at hi
    rcases hi with rfl | rfl | rfl | rfl | rfl | rfl
    · apply startsWithSend_of_eq (.running .setSingleShot 2)
      simp only [exec, execSetSingleShot, startOperation_runs hc, hr]
      rfl
    · apply startsWithSend_of_eq (.running .setPeriodic 2)
      simp only [exec, execSetPeriodic, startOperation_runs hc, hr, hv, hw]
      rfl
    · apply startsWithSend_of_eq (.running .setART 1)
      simp only [exec, execSetART, startOperation_runs hc]
      rfl
    · apply startsWithSend_of_eq (.running .readStatus 1)
      simp only [exec, execReadStatus, startOperation_runs hc]
      rfl
    · apply startsWithSend_of_eq (.running .clearStatus 1)
      simp only [exec, execClearStatus, startOperation_runs hc]
      rfl
    · apply startsWithSend_of_eq (.running .setHeater 2)
      simp only [exec, execSetHeater, startOperation_runs hc]
      rfl
  · obtain ⟨row, hrow, rfl⟩ := List.mem_map.1 hi
    obtain ⟨hformat, -, -, hst⟩ := wireTable_rows row hrow
    exact issueCommand_startsWithSend hc fun _ => exec_command hformat hst

theorem readSample_startsWithSend (h : ReadSampleSends s) : StartsWithSend .readSample s := by
  rcases or_assoc.2 h with hm | ⟨hm, row, hrow, hrep⟩
  · exact startsWithSend_of_eq (.running .readSample 2) ((readSample_fetch hc hm).trans rfl)
  · exact startsWithSend_of_eq (.running .readSample 2)
      ((readSample_single hc hm).trans (singleShotPath_eq hrow hrep))

end Sends

/-! ### The lines after an answered Send -/

section Received
variable {buf0 : RxBuf} (hc : s.cfg.clockStretch = false) (ha : s.h.addr = some a)
  (hs : s.cfg.hasSend = true) (h0 : s.answerAt 0 = .returns 0 buf0)
include hc ha hs h0

theorem readStatus_recv_unbound (hv : s.cfg.hasRecv = false) :
    exec .readStatus s = .fault (.capabilityUnbound .recv) := by
  simp only [exec, execReadStatus, startOperation_runs hc]
  rw [writeCommand_returns (s := s.goto _ 1) ha hs h0, statusOk_zero, if_pos rfl,
    busRecv_unbound (by exact ha) (by exact hv)]

/-- On both paths the first line after the Send is a Receive. -/
theorem readSample_recv_unbound (h : ReadSampleSends s) (hv : s.cfg.hasRecv = false) :
    exec .readSample s = .fault (.capabilityUnbound .recv) := by
  rcases or_assoc.2 h with hm | ⟨hm, row, hrow, hrep⟩
  · rw [readSample_fetch hc hm, fetchPath, writeCommand_returns (by exact ha) (by exact hs) (by exact h0),
      statusOk_zero, if_pos rfl, busRecv_unbound (by exact ha) (by exact hv)]
  · rw [readSample_sent hrow hc hm hrep ha hs h0, pollLoop_succ, busRecv_unbound (by exact ha) (by exact hv)]

variable (hv : s.cfg.hasRecv = true)
include hv

/-- The first attempt of the poll loop, its Receive answered. -/
theorem readSample_first_attempt {row : Repeatability × Byte × Byte} {st : Status} {buf : RxBuf}
    (hrow : row ∈ singleShotTable) (hm : s.h.mode = some .singleShot) (hrep : s.h.rep = some row.1)
    (h1 : s.answerAt 1 = .returns st buf) :
    ∃ u, u.cfg = s.cfg ∧ u.h = s.h ∧ u.rxbuf = buf ∧ exec .readSample s =
      if st = 0 then afterPolls true u
      else delay 1 (u.goto .readSample 4) fun t => pollLoop 19 t afterPolls := by
  refine ⟨((s.singleSent a row).attempt 19).afterRecv a lenMeas st buf, by simp, by simp, rfl, ?_⟩
  rw [readSample_sent hrow hc hm hrep ha hs h0, pollLoop_succ, busRecv_returns (a := a) (st := st) (buf := buf)
    (by exact ha) (by exact hv) (by
      rw [answerAt_attempt, answerAt_singleSent]
      exact h1)]
  simp only [statusOk_iff]
  rfl

/-- After a failed attempt the poll loop needs the Delay. -/
theorem readSample_delay_unbound {st : Status} {buf : RxBuf} (h : ReadSampleSends s)
    (hm : s.h.mode = some .singleShot) (hd : s.cfg.hasDelay = false) (h1 : s.answerAt 1 = .returns st buf)
    (hst : st ≠ 0) : exec .readSample s = .fault (.capabilityUnbound .delay) := by
  rcases h with hm' | hm' | ⟨-, row, hrow, hrep⟩
  · cases hm.symm.trans hm'
  · cases hm.symm.trans hm'
  · obtain ⟨u, hcfg, -, -, hu⟩ := readSample_first_attempt hc ha hs h0 hv hrow hm hrep h1
    rw [hu, if_neg hst, delay_unbound (by rw [goto_cfg, hcfg, hd])]

theorem readSample_fetch_crcUnbound {buf : RxBuf} (hm : s.h.mode = some .periodic ∨ s.h.mode = some .art)
    (hcrc : s.h.crc = .unbound) (h1 : s.answerAt 1 = .returns 0 buf) :
    exec .readSample s = .fault .crcUnbound := by
  rw [readSample_fetched hc hm ha hs hv h0 h1, sampleTail_unbound (by exact hcrc)]

/-- The guard lets the frame through to the first check. -/
theorem readSample_crcUnbound {buf : RxBuf} (h : ReadSampleSends s) (hcrc : s.h.crc = .unbound)
    (h1 : s.answerAt 1 = .returns 0 buf) (hguard : buf.b2 ≠ 0 ∨ buf.b5 ≠ 0) :
    exec .readSample s = .fault .crcUnbound := by
  rcases or_assoc.2 h with hm | ⟨hm, row, hrow, hrep⟩
  · exact readSample_fetch_crcUnbound hc ha hs h0 hv hm hcrc h1
  · obtain ⟨u, -, hh, hrx, hu⟩ := readSample_first_attempt hc ha hs h0 hv hrow hm hrep h1
    rw [hu, if_pos rfl, afterPolls_tail hrx hguard, sampleTail_unbound (by rw [hh]; exact hcrc)]

end Received

/-- Settles O37: each exit is the first line that needs the unbound capability, all lines before it answered. -/
theorem unboundCapabilitiesFault : Obligations.UnboundCapabilitiesFault := by
  intro s a hc ha
  refine ⟨fun hs speed rep enabled hspeed hrep i hi => ?_, fun hs h => ?_, fun buf hs hv h0 => ⟨?_, fun h => ?_⟩,
    fun buf0 st buf hs hv hd hm h h0 h1 hst => ?_, fun buf0 buf hs hv hcrc hb h0 h1 => ?_⟩
  · exact (sendsFirst_startsWithSend hc hspeed hrep hi).unbound ha hs
  · exact (readSample_startsWithSend hc h).unbound ha hs
  · exact readStatus_recv_unbound hc ha hs h0 hv
  · exact readSample_recv_unbound hc ha hs h0 h hv
  · exact readSample_delay_unbound hc ha hs h0 hv h hm hd h1 hst
  · rw [readStatus_receives hc ha hs hv h0 h1, if_pos rfl, crcCheck_ext_unbound (by exact hcrc) (by exact hb)]

/-! ### Registers without a value -/

/-- In a block with reset values every register holds one, so none of these faults has a cause. -/
theorem Inv.no_register_fault (h : Inv t) (hreset : t.cfg.powerOnRegisters = .resetValues) (r : RegName) :
    ¬ FaultCause t (.registerHoldsNoValue r) := by
  obtain ⟨haddr, hmode, hrep, -⟩ := h.held hreset
  cases r with
  | addr => exact haddr
  | mode => exact hmode
  | rep => exact hrep

theorem initBaseline_no_addr (h : s.h.addr = none) : initBaseline s = .fault (.registerHoldsNoValue .addr) :=
  writeCommand_no_addr h

/-- Settles O36: the named fault has a cause the invariant excludes; each other clause is the first line that reads
the register. -/
theorem registersWithoutValueFault : Obligations.RegistersWithoutValueFault := by
  refine ⟨fun s i r hinv hreset he => ?_, fun s hc => ⟨fun ha speed rep enabled hspeed hrep i hi => ?_,
    fun ha h => ?_, fun sel hres hs hv hd => ⟨fun hi => ?_, fun st buf hi h0 => ⟨fun hst => ?_, fun hst => ?_⟩⟩,
    fun hm => ?_, fun hm hrep => ?_, fun hm hrep => ?_, fun a buf0 buf hcrc ha hs hv h0 h1 => ⟨?_, fun hm => ?_,
    fun h hguard => ?_⟩⟩⟩
  · obtain ⟨t, ht, hcfg, hcause⟩ := (exec_inv i hinv).fault_of_eq he
    exact ht.no_register_fault (hcfg ▸ hreset) r hcause
  · exact (sendsFirst_startsWithSend hc hspeed hrep hi).no_addr ha
  · exact (readSample_startsWithSend hc h).no_addr ha
  · rw [init_noPlatform hc (requiredBound_eq_true hs hv hd) hi, initPrepared_eq (by exact hres)]
    exact initBaseline_no_addr rfl
  · rw [init_platform hc (requiredBound_eq_true hs hv hd) hi h0, if_pos hst, initPrepared_eq (by exact hres)]
    exact initBaseline_no_addr rfl
  · rw [init_platform hc (requiredBound_eq_true hs hv hd) hi h0, if_neg hst, initPrepared_eq (by exact hres)]
    exact ⟨_, rfl, rfl, rfl, rfl⟩
  · simp only [exec, execReadSample, startOperation_runs hc, goto_h, hm]
  · simp only [readSample_single hc hm, singleShotPath, goto_h, hrep]
  · simp only [readSample_single hc hm, singleShotPath, goto_h, hrep, singleShotCmd]
  · rw [readStatus_receives hc ha hs hv h0 h1, if_pos rfl, crcCheck_unbound (by exact hcrc)]
  · exact readSample_fetch_crcUnbound hc ha hs h0 hv hm hcrc h1
  · exact readSample_crcUnbound hc ha hs h0 hv h hcrc h1 hguard

end Sys2Proof.Machine
end
